-- ==== Sys2Proof/Word.lean ====
section
/-! DEFINITION. The word types of the TSVM dispatcher block: bytes, byte sequences and 32-bit address words
(spec/00_scope.md R10, R11; spec/30_encoding.md R93, R94). -/

namespace Sys2Proof

/-- A Byte, an integer 0..255 carried as 8 bits (R10, R94). -/
abbrev Byte := BitVec 8

/-- A byte sequence (R11). -/
abbrev Bytes := List Byte

/-- A machine address as it travels on a port (R93). -/
abbrev AddrWord := BitVec 32

/-- The identifier of a link endpoint, an element of the finite set `E` (R8). -/
abbrev EndpointId := Nat

/-- The number of a slot of the peripheral table, 0..7 (R24). -/
abbrev Slot := Fin 8

/-- A sanitised path: its segments, from the device root (43_command_protocol.md R231, R234). -/
abbrev Path := List Bytes

end Sys2Proof
end

