-- ==== Sys2Proof/Config.lean ====
section
/-! DEFINITION. The fixed constants of spec/00_scope.md R7 and R9, the free values, and the parameters of R8 that
are functions: the clock, the vendor cards, the hooks of vendor devices and the vendor stores. An `opaque` constant
here has no body: no proof can depend on its value. -/

namespace Sys2Proof.Config

/-! ## Constants of R7 and R9 -/

/-- `NSLOTS`: slots of the peripheral table. -/
@[simp] abbrev nslots : Nat := 8
/-- `RESERVE`: bytes of one slot's window. -/
@[simp] abbrev reserve : Nat := 1048576
/-- `USER_MAX`: the largest user RAM. -/
@[simp] abbrev userMax : Nat := 8388608
/-- `MMIO_WIN = RESERVE / NSLOTS`: bytes of one MMIO window (R9). -/
@[simp] abbrev mmioWin : Nat := 131072
/-- `UNIT`: bytes of one allocator unit. -/
@[simp] abbrev unitBytes : Nat := 64
/-- `BLOCK`: bytes of one frame. -/
@[simp] abbrev block : Nat := 4096
/-- `SLEEP_THRESHOLD_NS`. -/
@[simp] abbrev sleepThresholdNs : Int := 1000000
/-- `BITS_PER_BYTE`. -/
@[simp] abbrev bitsPerByte : Nat := 10
/-- Nanoseconds in a second, the factor 1e9 of R196. -/
@[simp] abbrev nsPerSecond : Nat := 1000000000
/-- `US`, the unit separator. -/
@[simp] abbrev us : Byte := 0x1F
/-- `EOB`, the end-of-block marker. -/
@[simp] abbrev eob : Byte := 0x17

/-! ## Free values -/

/-- The content of user RAM that no WRITE has written since reset: for the number of resets so far and the address.
Unspecified by R23 and R321 (93_implementation_defined.md U16): a free value (log 4). -/
opaque freeRamByte : Nat → Nat → Byte

/-- `romMapping` after construction (argument 0) and after the n-th RESET: unspecified by R25 and R321 (U6),
a free value (log 5). -/
opaque freeRomMapping : Nat → Option Byte

/-- How many nanoseconds pass before the n-th reading of the clock, beside those slept. The clock is the
environment's (R8 `now_ns`, R303, U23): a free value, never negative because the clock never falls (log 10). -/
opaque clockAdvance : Nat → Nat

/-! ## Vendor cards (R134 to R139)

A card's own state is opaque to the block: a token of type Nat. `none` is a call that never returns (R300). Each
call of a returning card gives its next token, and nothing else changes it (log 28, log 29); `peek` and `mmioRead` give a byte option beside it (R13). -/

/-- The internal state of a vendor card when it is installed, for its id and the number of installs so far (log 17). -/
opaque cardInitial : Nat → Nat → Nat
/-- `peek(off)` (R135). -/
opaque cardPeek : (id token off : Nat) → Option (Option Byte × Nat)
/-- `poke(off, byte)` (R136). -/
opaque cardPoke : (id token off : Nat) → Byte → Option Nat
/-- `mmio_read(m)` (R137). -/
opaque cardMmioRead : (id token m : Nat) → Option (Option Byte × Nat)
/-- `mmio_write(m, byte)` (R138). -/
opaque cardMmioWrite : (id token m : Nat) → Byte → Option Nat
/-- Whether `dispose()` returns (R139). The disposed card's state leaves the block. -/
opaque cardDisposeReturns : (id token : Nat) → Bool

/-! ## Hooks of vendor devices (42_link_engine.md R181)

The pure form of R181. `none` is a hook that never returns (R300). -/

/-- `produce`: the bytes to send and the next token. The last argument is the endpoint's own `blockSize.len`, which a
device may use as the number of bytes to send (R201). -/
opaque hookProduce : (id token len : Nat) → Option (Bytes × Nat)
/-- `consume`: the next token and the status code the hook writes, if it writes one. It sees the payload only
(R181 (b): it must not depend on the rest of the frame). -/
opaque hookConsume : (id token : Nat) → Bytes → Option (Nat × Option Int)
/-- `hasNext`: a query that changes nothing. -/
opaque hookHasNext : (id token : Nat) → Option Bool

end Sys2Proof.Config

namespace Sys2Proof

/-! ## The results of store calls (43_command_protocol.md R231) -/

/-- The results of `stat`. -/
inductive StatResult where
  | missing
  | file (len : Nat)
  | dir
  | ioError
  | secError
  deriving DecidableEq, Repr, Inhabited

/-- The results of `readAll` and `list`. -/
inductive FetchResult where
  | ok (bytes : Bytes)
  | ioError
  | secError
  deriving DecidableEq, Repr, Inhabited

/-- The results of `writeAll` and `append`. -/
inductive SaveResult where
  | ok
  | ioError
  | secError
  deriving DecidableEq, Repr, Inhabited

/-- The results of `delete`, `mkdir`, `mkfile` and `touch`. -/
inductive ChangeResult where
  | ok
  | failed
  | ioError
  | secError
  deriving DecidableEq, Repr, Inhabited

/-- What a path of a fixture store names: a file, a directory, or a place whose calls give an error. -/
inductive Node where
  | file (bytes : Bytes)
  | dir
  /-- `stat` finds a directory and every change gives `Failed`. -/
  | guarded
  /-- Every call gives `IOError`. -/
  | ioError
  /-- Every call gives `SecError`. -/
  | secError
  deriving DecidableEq, Repr, Inhabited

namespace Config

/-- The listing a fixture store returns for a directory: the store chooses the format (R231, U20), a free value. -/
opaque fixtureListing : List (Path × Node) → Path → Bytes

/-! ## Vendor stores (R231)

A store's own state is opaque to the block: a token. Every call returns (R231). -/

opaque storeStat : (id token : Nat) → Path → StatResult × Nat
opaque storeReadAll : (id token : Nat) → Path → FetchResult × Nat
opaque storeWriteAll : (id token : Nat) → Path → Bytes → SaveResult × Nat
opaque storeAppend : (id token : Nat) → Path → Bytes → SaveResult × Nat
opaque storeDelete : (id token : Nat) → Path → ChangeResult × Nat
opaque storeMkdir : (id token : Nat) → Path → ChangeResult × Nat
opaque storeMkfile : (id token : Nat) → Path → ChangeResult × Nat
opaque storeTouch : (id token : Nat) → Path → ChangeResult × Nat
opaque storeList : (id token : Nat) → Path → FetchResult × Nat

end Config

end Sys2Proof
end

