-- ==== Sys2Proof/Syntax.lean ====
section
/-! DEFINITION. The operations of the block, one constructor for each of the 49 rows of spec/opcode_table.json: the
17 operations of 30_encoding.md R91, the 16 address patterns of R95 and the 16 commands of R104. Also the requests
that carry them on the interfaces of 00_scope.md R6. -/

namespace Sys2Proof

/-- A card that INSTALL can place in a slot, the `peripheral` of an entry (R24, R134). -/
inductive Peripheral where
  /-- REGCARD(R, M) of 95_test_vectors.md section 0: R bytes of RAM, M registers, all zero when built. -/
  | regCard
  /-- A card with nothing of its own, such as PORTCARD of the same section beside its port registers: every read gives
  no value, every write does nothing. -/
  | blank
  /-- Any other card: its behaviour is a parameter (R8, U18). -/
  | vendor (id : Nat)
  deriving DecidableEq, Repr

/-- What follows a command text in its payload: nothing, or the end-of-block byte 0x17 and bytes that are ignored (R103). -/
inductive Tail where
  | absent
  | eob (ignored : Bytes)
  deriving DecidableEq, Repr

/-- The operations (R91), the address patterns (R95) and the commands (R104). -/
inductive Instr where
  -- format BUS (R92)
  | read (addr : Int)
  | write (addr : Int) (byte : Byte)
  -- format ALLOC (R96)
  | malloc (size : Int)
  | free (offset : Int)
  -- format LINK (R97)
  | attach (e f : EndpointId)
  | detach (e : EndpointId)
  | cable (e : EndpointId)
  | startSend (e : EndpointId)
  | startRead (e : EndpointId)
  | writeout (e : EndpointId) (data : Bytes)
  | hasNext (e : EndpointId)
  | recvMessage (e : EndpointId)
  -- format CFG (R97)
  | install (k : Nat) (card : Peripheral) (periMemSize mmioSize interruptCount : Int)
  | remove (k : Nat)
  | start
  | halt
  | reset
  -- format ADDR (R95): the bits of the address word that the pattern leaves free
  | addrUser (a : BitVec 23)
  | addrMmio0 (a : BitVec 17)
  | addrMmio1 (a : BitVec 17)
  | addrMmio2 (a : BitVec 17)
  | addrMmio3 (a : BitVec 17)
  | addrMmio4 (a : BitVec 17)
  | addrMmio5 (a : BitVec 17)
  | addrMmio6 (a : BitVec 17)
  | addrMmio7 (a : BitVec 17)
  | addrRam1 (a : BitVec 20)
  | addrRam2 (a : BitVec 20)
  | addrRam3 (a : BitVec 20)
  | addrRam4 (a : BitVec 20)
  | addrRam5 (a : BitVec 20)
  | addrRam6 (a : BitVec 20)
  | addrRam7 (a : BitVec 20)
  -- format CMD (R103 to R106): the endpoint whose WRITEOUT carries the command, the argument, what follows the text
  | cmdDevrst (e : EndpointId) (tail : Tail)
  | cmdDevstu (e : EndpointId) (tail : Tail)
  | cmdDevtyp (e : EndpointId) (tail : Tail)
  | cmdDevnam (e : EndpointId) (tail : Tail)
  | cmdOpenr (e : EndpointId) (arg : Bytes) (tail : Tail)
  | cmdOpenw (e : EndpointId) (arg : Bytes) (tail : Tail)
  | cmdOpena (e : EndpointId) (arg : Bytes) (tail : Tail)
  | cmdRead (e : EndpointId) (tail : Tail)
  | cmdWrite (e : EndpointId) (arg : Bytes) (tail : Tail)
  | cmdClose (e : EndpointId) (tail : Tail)
  | cmdDelete (e : EndpointId) (tail : Tail)
  | cmdMkdir (e : EndpointId) (tail : Tail)
  | cmdMkfile (e : EndpointId) (tail : Tail)
  | cmdTouch (e : EndpointId) (tail : Tail)
  | cmdListfiles (e : EndpointId) (tail : Tail)
  | cmdGetlen (e : EndpointId) (tail : Tail)
  deriving DecidableEq, Repr

/-- The sixteen command keywords (R104). -/
inductive Keyword where
  | devrst | devstu | devtyp | devnam | openr | openw | opena | read | write | close
  | delete | mkdir | mkfile | touch | listfiles | getlen
  deriving DecidableEq, Repr

/-- What follows the endpoint in a LINK request: nothing, the other endpoint of ATTACH, the data of WRITEOUT (R97). -/
inductive LinkOperand where
  | none
  | peer (f : EndpointId)
  | data (bytes : Bytes)
  deriving DecidableEq, Repr

/-- The operands of a CFG request: none, a slot number, a slot number and an entry (R97). -/
inductive CfgOperands where
  | none
  | slot (k : Nat)
  | entry (k : Nat) (card : Peripheral) (periMemSize mmioSize interruptCount : Int)
  deriving DecidableEq, Repr

/-- A request on an interface (R6, R90): its selector of R91 and its operands (log 2). -/
inductive Request where
  /-- Format BUS: the address word of R93, and the byte of a WRITE (R92). -/
  | bus (opsel : Byte) (addr : AddrWord) (wdata : Option Byte)
  /-- Format ALLOC: one integer of either sign and of any size (R96, R10). -/
  | alloc (opsel : Byte) (n : Int)
  /-- Format LINK: an endpoint of `E`, and what follows it (R97). -/
  | link (opsel : Byte) (e : EndpointId) (operand : LinkOperand)
  /-- Format CFG (R97). -/
  | cfg (opsel : Byte) (operands : CfgOperands)
  /-- Format ADDR: an address word (R95). -/
  | addr (A : AddrWord)
  /-- Format CMD: the payload of one WRITEOUT on endpoint `e` (R103). -/
  | cmd (e : EndpointId) (payload : Bytes)
  deriving DecidableEq, Repr

end Sys2Proof
end

