-- ==== Sys2Proof/WellFormed.lean ====
section
/-! DEFINITION. Which operations are well formed: the operand bounds of spec/ (R95, R97, R103 to R106, R140, R141,
R182) and the width of an address word (R93). -/

namespace Sys2Proof

/-- Why an operation is ill formed. -/
inductive IllFormed where
  /-- A machine address outside the 32-bit word of R93. -/
  | addressWidth
  /-- ATTACH of an endpoint to itself (R182). -/
  | selfAttach
  /-- A slot number outside 0..7 (R97). -/
  | slotRange
  /-- `periMemSize` outside 0..1048576 (R140). -/
  | periMemSize
  /-- `mmioSize` outside 0..131072 (R140). -/
  | mmioSize
  /-- `interruptCount` negative (R140). -/
  | interruptCount
  /-- A command argument that holds the end-of-block byte, which would end the text before it (R103, R105). -/
  | terminatorInArgument
  /-- A command payload longer than one block (R98, R103). -/
  | payloadLength
  deriving DecidableEq, Repr

/-- An integer that a 32-bit two's-complement word carries. -/
abbrev fitsWord (n : Int) : Bool := decide (-2147483648 ≤ n ∧ n ≤ 2147483647)

/-- The bytes of a tail (R103). -/
def Tail.bytes : Tail → Bytes
  | .absent => []
  | .eob ignored => Config.eob :: ignored

/-- The first check that fails, if one does. -/
def firstFailing : List (Bool × IllFormed) → Option IllFormed
  | [] => none
  | (true, _) :: rest => firstFailing rest
  | (false, why) :: _ => some why

/-- The checks of a command: a keyword of `len` bytes, its argument and its tail. -/
def checkCommand (len : Nat) (arg : Bytes) (tail : Tail) : Option IllFormed :=
  firstFailing
    [ (arg.all (· != Config.eob), .terminatorInArgument),
      (decide (len + arg.length + tail.bytes.length ≤ Config.block), .payloadLength) ]

/-- Why an operation is ill formed, if it is. -/
def Instr.check : Instr → Option IllFormed
  | .read addr => firstFailing [(fitsWord addr, .addressWidth)]
  | .write addr _ => firstFailing [(fitsWord addr, .addressWidth)]
  | .malloc _ => none
  | .free _ => none
  | .attach e f => firstFailing [(e != f, .selfAttach)]
  | .detach _ => none
  | .cable _ => none
  | .startSend _ => none
  | .startRead _ => none
  | .writeout _ _ => none
  | .hasNext _ => none
  | .recvMessage _ => none
  | .install k _ periMemSize mmioSize interruptCount =>
    firstFailing
      [ (decide (k < 8), .slotRange),
        (decide (0 ≤ periMemSize ∧ periMemSize ≤ 1048576), .periMemSize),
        (decide (0 ≤ mmioSize ∧ mmioSize ≤ 131072), .mmioSize),
        (decide (0 ≤ interruptCount), .interruptCount) ]
  | .remove k => firstFailing [(decide (k < 8), .slotRange)]
  | .start => none
  | .halt => none
  | .reset => none
  | .addrUser _ => none
  | .addrMmio0 _ => none
  | .addrMmio1 _ => none
  | .addrMmio2 _ => none
  | .addrMmio3 _ => none
  | .addrMmio4 _ => none
  | .addrMmio5 _ => none
  | .addrMmio6 _ => none
  | .addrMmio7 _ => none
  | .addrRam1 _ => none
  | .addrRam2 _ => none
  | .addrRam3 _ => none
  | .addrRam4 _ => none
  | .addrRam5 _ => none
  | .addrRam6 _ => none
  | .addrRam7 _ => none
  | .cmdDevrst _ tail => checkCommand 6 [] tail
  | .cmdDevstu _ tail => checkCommand 6 [] tail
  | .cmdDevtyp _ tail => checkCommand 6 [] tail
  | .cmdDevnam _ tail => checkCommand 6 [] tail
  | .cmdOpenr _ arg tail => checkCommand 5 arg tail
  | .cmdOpenw _ arg tail => checkCommand 5 arg tail
  | .cmdOpena _ arg tail => checkCommand 5 arg tail
  | .cmdRead _ tail => checkCommand 4 [] tail
  | .cmdWrite _ arg tail => checkCommand 5 arg tail
  | .cmdClose _ tail => checkCommand 5 [] tail
  | .cmdDelete _ tail => checkCommand 6 [] tail
  | .cmdMkdir _ tail => checkCommand 5 [] tail
  | .cmdMkfile _ tail => checkCommand 6 [] tail
  | .cmdTouch _ tail => checkCommand 5 [] tail
  | .cmdListfiles _ tail => checkCommand 9 [] tail
  | .cmdGetlen _ tail => checkCommand 6 [] tail

/-- Well-formed operations: every check passes. -/
abbrev Instr.WellFormed (i : Instr) : Prop := i.check = none

end Sys2Proof
end

