-- ==== Sys2Proof/Decode.lean ====
section
/-! DEFINITION. The decoder, total on any request and rejecting by name, and after it the encoder. Selectors and operands:
30_encoding.md R91, R92, R96, R97; address words: R93, R95; commands: R103 to R106, 43_command_protocol.md R233, R253. The
spec gives selectors, address words and command texts their bits, and the other operands none (R5, R90, log 2). -/

namespace Sys2Proof

/-- Why a request selects no operation. -/
inductive DecodeError where
  /-- A selector that is not in the table of R91 (R109 (1)). -/
  | unknownSelector (opsel : Byte)
  /-- A selector of the table with operands that are not its own (R92, R96, R97, log 19). -/
  | wrongOperands (opsel : Byte)
  /-- An address word that matches no row of R95 (R109 (2)). -/
  | unmappedWord (A : AddrWord)
  /-- A command text that matches no keyword of R104 (R109 (3), R253). -/
  | illegalCommand
  deriving DecidableEq, Repr

/-! ## Address words -/

/-- `sext_32` of a word (R93). -/
def intOfWord (A : AddrWord) : Int := A.toInt

/-- The 32-bit two's-complement word of an integer (R93). -/
def wordOfInt (n : Int) : AddrWord := BitVec.ofInt 32 n

/-! ## Formats BUS, ALLOC, LINK, CFG (R91) -/

/-- The selectors of R91. -/
def selectors : List Nat :=
  [0x00, 0x01, 0x10, 0x11, 0x20, 0x21, 0x22, 0x23, 0x24, 0x25, 0x26, 0x27, 0x30, 0x31, 0x32, 0x33, 0x34]

/-- Why a selector and its operands are no operation. -/
def rejectSelector (opsel : Byte) : Except DecodeError Instr :=
  .error (if selectors.contains opsel.toNat then .wrongOperands opsel else .unknownSelector opsel)

/-- A BUS request (R92). -/
def decodeBus (opsel : Byte) (A : AddrWord) (wdata : Option Byte) : Except DecodeError Instr :=
  match opsel.toNat, wdata with
  | 0x00, none => .ok (.read (intOfWord A))
  | 0x01, some b => .ok (.write (intOfWord A) b)
  | _, _ => rejectSelector opsel

/-- An ALLOC request (R96): an integer of any size. -/
def decodeAlloc (opsel : Byte) (n : Int) : Except DecodeError Instr :=
  match opsel.toNat with
  | 0x10 => .ok (.malloc n)
  | 0x11 => .ok (.free n)
  | _ => rejectSelector opsel

/-- A LINK request (R97): any endpoint. -/
def decodeLink (opsel : Byte) (e : EndpointId) (operand : LinkOperand) : Except DecodeError Instr :=
  match opsel.toNat, operand with
  | 0x20, .peer f => .ok (.attach e f)
  | 0x21, .none => .ok (.detach e)
  | 0x22, .none => .ok (.cable e)
  | 0x23, .none => .ok (.startSend e)
  | 0x24, .none => .ok (.startRead e)
  | 0x25, .data bytes => .ok (.writeout e bytes)
  | 0x26, .none => .ok (.hasNext e)
  | 0x27, .none => .ok (.recvMessage e)
  | _, _ => rejectSelector opsel

/-- A CFG request (R97). -/
def decodeCfg (opsel : Byte) (operands : CfgOperands) : Except DecodeError Instr :=
  match opsel.toNat, operands with
  | 0x30, .entry k card periMemSize mmioSize interruptCount =>
    .ok (.install k card periMemSize mmioSize interruptCount)
  | 0x31, .slot k => .ok (.remove k)
  | 0x32, .none => .ok .start
  | 0x33, .none => .ok .halt
  | 0x34, .none => .ok .reset
  | _, _ => rejectSelector opsel

/-! ## Format ADDR -/

/-- The row of R95 that an address word matches: the fixed bits are those under the row's mask. -/
def decodeAddrWord (A : AddrWord) : Except DecodeError Instr :=
  if A.extractLsb' 23 9 = 0 then .ok (.addrUser (A.extractLsb' 0 23))
  else if A.extractLsb' 17 15 = 0x7FFF then .ok (.addrMmio0 (A.extractLsb' 0 17))
  else if A.extractLsb' 17 15 = 0x7FFE then .ok (.addrMmio1 (A.extractLsb' 0 17))
  else if A.extractLsb' 17 15 = 0x7FFD then .ok (.addrMmio2 (A.extractLsb' 0 17))
  else if A.extractLsb' 17 15 = 0x7FFC then .ok (.addrMmio3 (A.extractLsb' 0 17))
  else if A.extractLsb' 17 15 = 0x7FFB then .ok (.addrMmio4 (A.extractLsb' 0 17))
  else if A.extractLsb' 17 15 = 0x7FFA then .ok (.addrMmio5 (A.extractLsb' 0 17))
  else if A.extractLsb' 17 15 = 0x7FF9 then .ok (.addrMmio6 (A.extractLsb' 0 17))
  else if A.extractLsb' 17 15 = 0x7FF8 then .ok (.addrMmio7 (A.extractLsb' 0 17))
  else if A.extractLsb' 20 12 = 0xFFE then .ok (.addrRam1 (A.extractLsb' 0 20))
  else if A.extractLsb' 20 12 = 0xFFD then .ok (.addrRam2 (A.extractLsb' 0 20))
  else if A.extractLsb' 20 12 = 0xFFC then .ok (.addrRam3 (A.extractLsb' 0 20))
  else if A.extractLsb' 20 12 = 0xFFB then .ok (.addrRam4 (A.extractLsb' 0 20))
  else if A.extractLsb' 20 12 = 0xFFA then .ok (.addrRam5 (A.extractLsb' 0 20))
  else if A.extractLsb' 20 12 = 0xFF9 then .ok (.addrRam6 (A.extractLsb' 0 20))
  else if A.extractLsb' 20 12 = 0xFF8 then .ok (.addrRam7 (A.extractLsb' 0 20))
  else .error (.unmappedWord A)

/-! ## Format CMD -/

/-- The bytes of a keyword (R104). -/
def Keyword.bytes : Keyword → Bytes
  | .devrst => [0x44, 0x45, 0x56, 0x52, 0x53, 0x54]
  | .devstu => [0x44, 0x45, 0x56, 0x53, 0x54, 0x55]
  | .devtyp => [0x44, 0x45, 0x56, 0x54, 0x59, 0x50]
  | .devnam => [0x44, 0x45, 0x56, 0x4E, 0x41, 0x4D]
  | .openr => [0x4F, 0x50, 0x45, 0x4E, 0x52]
  | .openw => [0x4F, 0x50, 0x45, 0x4E, 0x57]
  | .opena => [0x4F, 0x50, 0x45, 0x4E, 0x41]
  | .read => [0x52, 0x45, 0x41, 0x44]
  | .write => [0x57, 0x52, 0x49, 0x54, 0x45]
  | .close => [0x43, 0x4C, 0x4F, 0x53, 0x45]
  | .delete => [0x44, 0x45, 0x4C, 0x45, 0x54, 0x45]
  | .mkdir => [0x4D, 0x4B, 0x44, 0x49, 0x52]
  | .mkfile => [0x4D, 0x4B, 0x46, 0x49, 0x4C, 0x45]
  | .touch => [0x54, 0x4F, 0x55, 0x43, 0x48]
  | .listfiles => [0x4C, 0x49, 0x53, 0x54, 0x46, 0x49, 0x4C, 0x45, 0x53]
  | .getlen => [0x47, 0x45, 0x54, 0x4C, 0x45, 0x4E]

/-- The keywords without an argument (R104). -/
def plainKeywords : List Keyword :=
  [.devrst, .devstu, .devtyp, .devnam, .read, .close, .delete, .mkdir, .mkfile, .touch, .listfiles, .getlen]

/-- The keywords that an argument follows (R104). -/
def argumentKeywords : List Keyword := [.openr, .openw, .opena, .write]

/-- `command_text(payload)` (R233): the bytes before the first 0x17, or all of them. -/
def commandText (payload : Bytes) : Bytes := payload.takeWhile (· != Config.eob)

/-- What follows the command text in its payload (R103). -/
def commandTail (payload : Bytes) : Tail :=
  match payload.dropWhile (· != Config.eob) with
  | [] => .absent
  | _ :: ignored => .eob ignored

/-- The command that a text selects, with its argument (R253): a text equal to a keyword without argument, or a text
that begins with one of the other four. -/
def selectKeyword (text : Bytes) : Option (Keyword × Bytes) :=
  match plainKeywords.find? (fun k => k.bytes == text) with
  | some k => some (k, [])
  | none =>
    match argumentKeywords.find? (fun k => k.bytes.isPrefixOf text) with
    | some k => some (k, text.drop k.bytes.length)
    | none => none

/-- The operation of a keyword. -/
def Keyword.instr (e : EndpointId) (arg : Bytes) (tail : Tail) : Keyword → Instr
  | .devrst => .cmdDevrst e tail
  | .devstu => .cmdDevstu e tail
  | .devtyp => .cmdDevtyp e tail
  | .devnam => .cmdDevnam e tail
  | .openr => .cmdOpenr e arg tail
  | .openw => .cmdOpenw e arg tail
  | .opena => .cmdOpena e arg tail
  | .read => .cmdRead e tail
  | .write => .cmdWrite e arg tail
  | .close => .cmdClose e tail
  | .delete => .cmdDelete e tail
  | .mkdir => .cmdMkdir e tail
  | .mkfile => .cmdMkfile e tail
  | .touch => .cmdTouch e tail
  | .listfiles => .cmdListfiles e tail
  | .getlen => .cmdGetlen e tail

/-- A command request: the payload is the first 4096 bytes at most, as the link clamps it (R187). -/
def decodeCmd (e : EndpointId) (bytes : Bytes) : Except DecodeError Instr :=
  let payload := bytes.take Config.block
  match selectKeyword (commandText payload) with
  | some (k, arg) => .ok (k.instr e arg (commandTail payload))
  | none => .error .illegalCommand

/-- The decoder. -/
def decode : Request → Except DecodeError Instr
  | .bus opsel A wdata => decodeBus opsel A wdata
  | .alloc opsel n => decodeAlloc opsel n
  | .link opsel e operand => decodeLink opsel e operand
  | .cfg opsel operands => decodeCfg opsel operands
  | .addr A => decodeAddrWord A
  | .cmd e payload => decodeCmd e payload

/-! ## The words of the opcode table -/

/-- The request of a selector whose operands are zero, nothing or empty: the table gives an operation no operand bits. -/
def requestOfSelector (opsel : Nat) : Request :=
  match opsel with
  | 0x00 => .bus 0x00 0 none
  | 0x01 => .bus 0x01 0 (some 0)
  | 0x10 => .alloc 0x10 0
  | 0x11 => .alloc 0x11 0
  | 0x20 => .link 0x20 0 (.peer 0)
  | 0x21 => .link 0x21 0 .none
  | 0x22 => .link 0x22 0 .none
  | 0x23 => .link 0x23 0 .none
  | 0x24 => .link 0x24 0 .none
  | 0x25 => .link 0x25 0 (.data [])
  | 0x26 => .link 0x26 0 .none
  | 0x27 => .link 0x27 0 .none
  | 0x30 => .cfg 0x30 (.entry 0 .regCard 0 0 0)
  | 0x31 => .cfg 0x31 (.slot 0)
  | n => .cfg (BitVec.ofNat 8 n) .none

/-- `n` bytes of a number, the most significant first, as the table numbers the bits of its ADDR and CMD rows. -/
def bigEndian : Nat → Nat → Bytes
  | 0, _ => []
  | n + 1, w => BitVec.ofNat 8 (w / 256 ^ n) :: bigEndian n w

/-- The request that carries a word of the opcode table: a selector with operands of zeros (8 bits), a command text on
endpoint 0, or an address word (32 bits that are not a command text). -/
def requestOfTableWord (nbits w : Nat) : Request :=
  if nbits ≤ 8 then requestOfSelector (w % 256)
  else
    let bytes := bigEndian (nbits / 8) w
    match selectKeyword (commandText bytes) with
    | some _ => .cmd 0 bytes
    | none => if nbits = 32 then .addr (BitVec.ofNat 32 w) else .cmd 0 bytes

/-- The operation the decoder reads from a word of the opcode table. -/
def decodeTableWord (nbits w : Nat) : Option Instr :=
  match decode (requestOfTableWord nbits w) with
  | .ok i => some i
  | .error _ => none

/-! ## The encoder -/

/-- A command payload: keyword, argument, tail (R103, R104). -/
def encodeCmd (e : EndpointId) (k : Keyword) (arg : Bytes) (tail : Tail) : Request :=
  .cmd e (k.bytes ++ arg ++ tail.bytes)

/-- The request of an operation. -/
def encode : Instr → Request
  | .read addr => .bus 0x00 (wordOfInt addr) none
  | .write addr byte => .bus 0x01 (wordOfInt addr) (some byte)
  | .malloc size => .alloc 0x10 size
  | .free offset => .alloc 0x11 offset
  | .attach e f => .link 0x20 e (.peer f)
  | .detach e => .link 0x21 e .none
  | .cable e => .link 0x22 e .none
  | .startSend e => .link 0x23 e .none
  | .startRead e => .link 0x24 e .none
  | .writeout e data => .link 0x25 e (.data data)
  | .hasNext e => .link 0x26 e .none
  | .recvMessage e => .link 0x27 e .none
  | .install k card periMemSize mmioSize interruptCount =>
    .cfg 0x30 (.entry k card periMemSize mmioSize interruptCount)
  | .remove k => .cfg 0x31 (.slot k)
  | .start => .cfg 0x32 .none
  | .halt => .cfg 0x33 .none
  | .reset => .cfg 0x34 .none
  | .addrUser a => .addr (0#9 ++ a)
  | .addrMmio0 a => .addr (0x7FFF#15 ++ a)
  | .addrMmio1 a => .addr (0x7FFE#15 ++ a)
  | .addrMmio2 a => .addr (0x7FFD#15 ++ a)
  | .addrMmio3 a => .addr (0x7FFC#15 ++ a)
  | .addrMmio4 a => .addr (0x7FFB#15 ++ a)
  | .addrMmio5 a => .addr (0x7FFA#15 ++ a)
  | .addrMmio6 a => .addr (0x7FF9#15 ++ a)
  | .addrMmio7 a => .addr (0x7FF8#15 ++ a)
  | .addrRam1 a => .addr (0xFFE#12 ++ a)
  | .addrRam2 a => .addr (0xFFD#12 ++ a)
  | .addrRam3 a => .addr (0xFFC#12 ++ a)
  | .addrRam4 a => .addr (0xFFB#12 ++ a)
  | .addrRam5 a => .addr (0xFFA#12 ++ a)
  | .addrRam6 a => .addr (0xFF9#12 ++ a)
  | .addrRam7 a => .addr (0xFF8#12 ++ a)
  | .cmdDevrst e tail => encodeCmd e .devrst [] tail
  | .cmdDevstu e tail => encodeCmd e .devstu [] tail
  | .cmdDevtyp e tail => encodeCmd e .devtyp [] tail
  | .cmdDevnam e tail => encodeCmd e .devnam [] tail
  | .cmdOpenr e arg tail => encodeCmd e .openr arg tail
  | .cmdOpenw e arg tail => encodeCmd e .openw arg tail
  | .cmdOpena e arg tail => encodeCmd e .opena arg tail
  | .cmdRead e tail => encodeCmd e .read [] tail
  | .cmdWrite e arg tail => encodeCmd e .write arg tail
  | .cmdClose e tail => encodeCmd e .close [] tail
  | .cmdDelete e tail => encodeCmd e .delete [] tail
  | .cmdMkdir e tail => encodeCmd e .mkdir [] tail
  | .cmdMkfile e tail => encodeCmd e .mkfile [] tail
  | .cmdTouch e tail => encodeCmd e .touch [] tail
  | .cmdListfiles e tail => encodeCmd e .listfiles [] tail
  | .cmdGetlen e tail => encodeCmd e .getlen [] tail

end Sys2Proof
end

