-- ==== Sys2Proof/Machine/State.lean ====
section
/-! DEFINITION. The state of the block: everything of spec/10_state.md, the cards, devices and stores that stand
behind its interfaces as plain data, and the model's own fields (the request queue, the response, the background
agents' script, the clock). Also the reasons a step can stop, and reset (70_reset_and_hazards.md R321). -/

namespace Sys2Proof.Machine

/-! ## Why a step can stop -/

/-- What an operation that never returns waits for (R300): a call on a card, a hook of a device, or, in a RECV_MESSAGE, the
continuation flag of its peer. -/
inductive Stalled where
  | card (k : Slot)
  | device (e : EndpointId)
  | flag (peer : EndpointId)
  deriving DecidableEq, Repr

/-- A step without a next state. The four fatal faults of R290 are no constructors here: they are responses, and
the block goes on (R292). -/
inductive Fault where
  /-- A card call or a device hook never returns, or the loop of a RECV_MESSAGE never ends, and so the operation never
  returns (R300, U5: stuck). Raised by the operations that call vendor cards and vendor devices, and by RECV_MESSAGE. Safe:
  the hardware has no next state either. -/
  | neverReturns (who : Stalled)
  deriving DecidableEq, Repr

/-- A situation to which the spec gives no meaning (R306, treatment "refuse" of 93_implementation_defined.md). -/
inductive Refusal where
  /-- An instruction without a meaning in this model. Raised by `exec` only. Safe. -/
  | notModelled (mnemonic : String)
  /-- The bytes presented select no operation (R109 (1), (2): the interface has no such request). Raised by `step`. Safe. -/
  | noSuchOperation (why : DecodeError)
  /-- An IF-BUS, IF-ALLOC or IF-LINK operation while HALTED, ATTACH and DETACH apart (R26, U11, log 13). Raised by those
  operations. Safe. -/
  | whileHalted
  /-- INSTALL or REMOVE while RUNNING (U10). Raised by those two. Safe. -/
  | whileRunning
  /-- ATTACH of an endpoint to itself (U9). Raised by ATTACH. Safe. -/
  | selfAttach
  /-- A `produceBlock` hook that produced more than 4096 bytes (U8). Raised by transfers from a vendor device. Safe. -/
  | hookContract (e : EndpointId)
  /-- An operation on an endpoint that does not exist: not in `E`, or destroyed with its card (U12, R141). Raised by
  the link operations, the commands and the port registers. Safe. -/
  | noEndpoint (e : EndpointId)
  /-- An INSTALL operand outside its bounds, or a slot number outside 0..7 (U13, R97). Raised by INSTALL and REMOVE. Safe. -/
  | cfgOperand
  /-- The fixture input `loadTx` for an endpoint that is no reference endpoint (log 20). Raised by `step`. Safe. -/
  | notReference (e : EndpointId)
  deriving DecidableEq, Repr

/-! ## Responses -/

/-- The target of an address (R66). -/
inductive Target where
  | user (a : Nat)
  | mmio (j : Slot) (w : Nat)
  | ram (k : Slot) (off : Nat)
  | noMapping
  deriving DecidableEq, Repr

/-- The four fatal faults F1 to F4 (R290). -/
inductive FaultCode where
  | illegalAccess
  | outOfMemory
  | invalidFree
  | invalidAllocSize
  deriving DecidableEq, Repr

/-- The response of an operation (R91, R92, R96, R97). -/
inductive Response where
  /-- No operation has answered yet (log 8). -/
  | none
  /-- `Data(b)` of a READ. -/
  | data (b : Byte)
  | ack
  /-- `Offset(o)` of a MALLOC. -/
  | offset (o : Nat)
  /-- The boolean of CABLE and HAS_NEXT. -/
  | bool (b : Bool)
  /-- The byte sequence of RECV_MESSAGE. -/
  | bytes (data : Bytes)
  /-- The answer of the address decode to an ADDR pattern (log 6). -/
  | target (t : Target)
  /-- `Fault(F, value, machineId)` (R292). -/
  | fault (f : FaultCode) (value : Int) (machineId : Int)
  deriving DecidableEq, Repr

/-! ## Cards and the peripheral table -/

/-- A list of (address, byte) pairs. -/
abbrev Memory := List Host.Cell

/-- The card in a slot with its own state, which is outside the block (R134). That state changes in the dispatcher's calls on
the card only (DESIGN CHOICE, log 28), and no endpoint's device has a part in it (DESIGN CHOICE, log 29). -/
inductive Card where
  /-- REGCARD: its RAM and its registers, bytes that nothing wrote being zero. -/
  | reg (ram regs : Memory)
  | blank
  | vendor (id token : Nat)
  deriving DecidableEq, Repr

/-- `Entry(peripheral, periMemSize, mmioSize, interruptCount)` (R24). -/
structure Entry where
  card : Card
  periMemSize : Nat
  mmioSize : Nat
  interruptCount : Nat
  deriving DecidableEq, Repr

/-- A call the dispatcher made on a card (R134 to R139). -/
inductive PeriCall where
  | peek (k : Slot) (off : Nat)
  | poke (k : Slot) (off : Nat) (byte : Byte)
  | mmioRead (k : Slot) (m : Nat)
  | mmioWrite (k : Slot) (m : Nat) (byte : Byte)
  | dispose (k : Slot)
  deriving DecidableEq, Repr

/-! ## Command devices -/

/-- `openMode` (R39). -/
inductive OpenMode where
  | r | w | a
  deriving DecidableEq, Repr

/-- The backing store of a command device (R231), outside the block. -/
inductive Store where
  /-- A fixture: what its paths name; the root is a directory and every other path is missing (log 18). -/
  | fixture (readOnly : Bool) (nodes : List (Path × Node))
  | vendor (readOnly : Bool) (id token : Nat)
  deriving DecidableEq, Repr

/-- The command session (R39 to R42). -/
structure Session where
  fileOpen : Bool
  openMode : OpenMode
  curPath : Option Path
  drive : Option Nat
  writeBuffer : Bytes
  writeTarget : Nat
  writeBufferUsage : Nat
  accumulating : Bool
  sendBuffer : Bytes
  sendPos : Nat
  deriving DecidableEq, Repr

/-- The session at reset (R321). -/
def Session.reset : Session where
  fileOpen := false
  openMode := .r
  curPath := none
  drive := none
  writeBuffer := []
  writeTarget := 0
  writeBufferUsage := 0
  accumulating := false
  sendBuffer := []
  sendPos := 0

/-- A command device: its constants (R43) and its session. -/
structure CommandDevice where
  devType : Bytes
  devName : Bytes
  /-- `MSG[d][c]` for the codes listed; the message of 129 is R43's whatever stands here (log 22). -/
  messages : List (Byte × Bytes)
  forbidden : Bytes
  store : Store
  session : Session
  deriving DecidableEq, Repr

/-- The device behind an endpoint (R181). -/
inductive Device where
  /-- The reference endpoint of R202. -/
  | reference (txQueue rxLog : Bytes)
  | command (d : CommandDevice)
  /-- Any other device: its hooks are a parameter (U1). -/
  | vendor (id token : Nat)
  deriving DecidableEq, Repr

/-! ## Endpoints -/

/-- `blockSize` (R34): one atomic pair. -/
structure BlockSize where
  len : Nat
  cont : Bool
  deriving DecidableEq, Repr

/-- A link endpoint (R30 to R36). -/
structure Endpoint where
  isMaster : Bool
  isSlave : Bool
  baud : Nat
  bgAgent : Bool
  /-- The slot whose card owns the endpoint (R140, R141). -/
  owner : Option Slot
  recipient : Option EndpointId
  ready : Bool
  busy : Bool
  statusCode : Int
  blockSize : BlockSize
  sendmode : Bool
  delayAcc : Int
  device : Device
  deriving DecidableEq, Repr

/-- What is fixed of an endpoint when it is built (R8, R30), with its device. -/
structure EndpointBuild where
  isMaster : Bool
  isSlave : Bool
  baud : Nat
  bgAgent : Bool
  device : Device
  deriving DecidableEq, Repr

/-- A write of a background agent, of a value of the right type (R80). There is no write to the device's own state: that it
changes in hook calls only is the model's choice (DESIGN CHOICE, log 27), since R14 and R80 speak of the block's state. -/
inductive AgentWrite where
  | ready (b : Bool)
  | busy (b : Bool)
  | statusCode (c : Int)
  | blockSize (len : Fin 4097) (cont : Bool)
  deriving DecidableEq, Repr

/-- A frame on the wire: the receiver, the 4096 bytes, the count beside it (R98). -/
structure WireBlock where
  dest : EndpointId
  frame : Bytes
  count : Nat
  deriving DecidableEq, Repr

/-! ## Parameters -/

/-- A serial port (R8): `STATUS_OFF[p]`, `BLKSZ_OFF[p]`, `portEp[p]`. -/
structure Port where
  statusOff : Nat
  blkszOff : Nat
  ep : EndpointId
  deriving DecidableEq, Repr

/-- The parameters of R8 that are data, constant in a machine (R22). -/
structure Params where
  machineId : Int
  memsize : Fin 8388609
  portSlot : Slot
  ports : List Port
  /-- The endpoints that a card owns, created and destroyed with it (R140). -/
  cardEndpoints : List (Peripheral × List (EndpointId × EndpointBuild))
  deriving DecidableEq, Repr

/-- A machine as built: its parameters and the endpoints that no card owns. -/
structure Build where
  params : Params
  endpoints : List (EndpointId × EndpointBuild)
  deriving DecidableEq, Repr

/-! ## Inputs -/

/-- What the outside world presents next (log 1, log 20). -/
inductive Input where
  | request (r : Request)
  /-- A test loads `txQueue[h]` of a reference endpoint (R202, R110). -/
  | loadTx (h : EndpointId) (bytes : Bytes)
  deriving DecidableEq, Repr

/-- `runState` (R26). -/
inductive RunState where
  | halted | running
  deriving DecidableEq, Repr

/-! ## The state -/

/-- The state of the block. -/
structure State where
  params : Params
  /-- `userMemory` (R23): the bytes written since reset. -/
  userMemory : Memory
  peripheralTable : Vector (Option Entry) 8
  romMapping : Option Byte
  runState : RunState
  allocBits : List Bool
  allocMap : List (Nat × Nat)
  endpoints : List (EndpointId × Endpoint)
  /-- The clock `now_ns` (R8). -/
  now : Nat
  /-- The last frame on the wire (R60 (5), R98). -/
  wire : Option WireBlock
  /-- Model: requests still to come (log 1). -/
  pending : List Input
  /-- Model: the response of the last operation (log 8). -/
  response : Response
  /-- Model: the calls on cards that the operation made, the latest first (log 23). -/
  periCalls : List PeriCall
  /-- Model: the background agents' coming writes, one batch a point at which they may step (log 9). -/
  agentScript : List (List (EndpointId × AgentWrite))
  /-- Model: readings of the clock so far (log 10). -/
  clockReads : Nat
  /-- Model: nanoseconds slept in all (log 10). -/
  slept : Nat
  /-- Model: RESETs so far (log 4, 5). -/
  resetCount : Nat
  /-- Model: INSTALLs so far (log 17). -/
  installs : Nat
  deriving DecidableEq, Repr

/-- `memsize` as a number of bytes. -/
abbrev State.memsize (s : State) : Nat := s.params.memsize.val

/-- `NUNITS = memsize div 64` (R27). -/
def nunits (memsize : Nat) : Nat := memsize / Config.unitBytes

/-- A device in the state R321 gives it after construction and RESET: the session and the reference queues empty, a
vendor device (DESIGN CHOICE, log 28) and every store untouched. -/
def Device.reset : Device → Device
  | .reference _ _ => .reference [] []
  | .command d => .command { d with session := Session.reset }
  | .vendor id token => .vendor id token

/-- An endpoint after RESET (R321): the constants and `recipient` kept. -/
def Endpoint.reset (x : Endpoint) : Endpoint :=
  { x with
    ready := true, busy := false, statusCode := 0, blockSize := ⟨0, false⟩, sendmode := false, delayAcc := 0,
    device := x.device.reset }

/-- Whether a background agent may run behind a device: never behind a reference endpoint (R202) or a command device (R43,
R230). -/
def Device.mayRunAgent : Device → Bool
  | .reference _ _ => false
  | .command _ => false
  | .vendor _ _ => true

/-- Whether the endpoint has a background agent (R80): its device may run one, and `bgAgent` says that it does. -/
def Endpoint.runsAgent (x : Endpoint) : Bool := x.bgAgent && x.device.mayRunAgent

/-- An endpoint after construction (R321). What its device holds of its own, a vendor device's token and a command device's
store, is what the build says, every time: an INSTALL makes the endpoints of its card anew, whatever an earlier card of the
same kind left in its own (DESIGN CHOICE, log 26). -/
def EndpointBuild.construct (owner : Option Slot) (b : EndpointBuild) : Endpoint where
  isMaster := b.isMaster
  isSlave := b.isSlave
  baud := b.baud
  bgAgent := b.bgAgent && b.device.mayRunAgent
  owner := owner
  recipient := none
  ready := true
  busy := false
  statusCode := 0
  blockSize := ⟨0, false⟩
  sendmode := false
  delayAcc := 0
  device := b.device.reset

/-- The state after construction (R320, R321), for every build. -/
def State.construct (b : Build) : State where
  params := b.params
  userMemory := []
  peripheralTable := Vector.replicate 8 none
  romMapping := Config.freeRomMapping 0
  runState := .halted
  allocBits := List.replicate (nunits b.params.memsize.val) false
  allocMap := []
  endpoints := b.endpoints.map (fun p => (p.1, p.2.construct none))
  now := 0
  wire := none
  pending := []
  response := .none
  periCalls := []
  agentScript := []
  clockReads := 0
  slept := 0
  resetCount := 0
  installs := 0

/-- The spec's own test fixtures as one machine (95_test_vectors.md sections 0 and 9): endpoint 0 a command device on the
empty store, endpoints 1 and 2 reference endpoints, a serial port for endpoint 2 in slot 1 (log 3). -/
def Build.fixture : Build where
  params :=
    { machineId := 7
      memsize := 65536
      portSlot := 1
      ports := [⟨0, 1, 2⟩]
      cardEndpoints := [] }
  endpoints :=
    [ (0, { isMaster := false, isSlave := false, baud := 9600, bgAgent := false,
            device := .command
              { devType := [0x53, 0x54, 0x4F, 0x52]
                devName := [0x54, 0x45, 0x53, 0x54, 0x44, 0x49, 0x53, 0x4B]
                messages := [], forbidden := [], store := .fixture false [], session := Session.reset } }),
      (1, { isMaster := false, isSlave := false, baud := 9600, bgAgent := false, device := .reference [] [] }),
      (2, { isMaster := true, isSlave := false, baud := 9600, bgAgent := false, device := .reference [] [] }) ]

/-- The machine right after reset: the construction of the fixture machine (log 3). -/
def State.reset : State := State.construct Build.fixture

end Sys2Proof.Machine
end

