-- ==== Sys2Proof/Machine/Ops.lean ====
section
/-! DEFINITION. The shared operations over the state: memory, endpoints, the background agents' points, the clock, the
response, taking a fault, the run-state checks, the peripheral table. -/

namespace Sys2Proof.Machine

/-- The outcome of a part of an operation that gives a value of type `α` beside or instead of the state. -/
abbrev Res (α : Type) := Host.Outcome α Fault Refusal

/-- Run `k` on the result of `r`; a stop stops the whole operation. -/
def andThen {α β : Type} (r : Res α) (k : α → Res β) : Res β :=
  match r with
  | .next a => k a
  | .fault f => .fault f
  | .refused f => .refused f

/-! ## Memory

A memory lists the bytes written, addresses strictly rising. An unlisted address has no known value. -/

/-- The canonical form: addresses strictly rising. No entry can equal what an unlisted address reads as, since that is
no value. -/
abbrev Memory.wf (m : Memory) : Prop := m.Pairwise (fun c d => c.1 < d.1)

/-- The byte at an address, if one was written. -/
def Memory.read : Memory → Nat → Option Byte
  | [], _ => none
  | (b, v) :: rest, a => if a = b then some v else Memory.read rest a

/-- Write one byte. -/
def Memory.write : Memory → Nat → Byte → Memory
  | [], a, v => [(a, v)]
  | (b, w) :: rest, a, v =>
    if a < b then (a, v) :: (b, w) :: rest
    else if a = b then (a, v) :: rest
    else (b, w) :: Memory.write rest a v

/-- `userMemory[a]`: the byte written, or the free value of a byte that no WRITE has written since reset (R23, R77, log 4). -/
def State.userByte (s : State) (a : Nat) : Byte :=
  (Memory.read s.userMemory a).getD (Config.freeRamByte s.resetCount a)

/-- `userMemory[a] <- byte`. -/
def State.writeUser (s : State) (a : Nat) (v : Byte) : State :=
  { s with userMemory := Memory.write s.userMemory a v }

/-! ## Responses and faults -/

/-- The operation returns `r`. -/
def State.respond (s : State) (r : Response) : State := { s with response := r }

/-- Taking a fault (R292): the response is the fault with its value and the machine's id; nothing else changes and the
block is ready for the next operation (R301: there is no return). -/
def State.raise (s : State) (f : FaultCode) (value : Int) : State :=
  s.respond (.fault f value s.params.machineId)

/-- IF-BUS, IF-ALLOC and IF-LINK operations, ATTACH and DETACH apart, are accepted only while RUNNING (R26, U11). -/
def requireRunning (s : State) (r : Res State) : Res State :=
  match s.runState with
  | .running => r
  | .halted => .refused .whileHalted

/-- INSTALL and REMOVE are presented only while HALTED (R26, U10). -/
def requireHalted (s : State) (r : Res State) : Res State :=
  match s.runState with
  | .halted => r
  | .running => .refused .whileRunning

/-! ## Endpoints -/

/-- The endpoint with an identifier, if it exists. -/
def State.endpoint? (s : State) (e : EndpointId) : Option Endpoint := s.endpoints.lookup e

/-- Change one endpoint. -/
def State.modifyEndpoint (s : State) (e : EndpointId) (g : Endpoint → Endpoint) : State :=
  { s with endpoints := s.endpoints.map (fun p => if p.1 = e then (p.1, g p.2) else p) }

/-- Run `k` on an endpoint that exists; an operation on one that does not is refused (U12). -/
def withEndpoint {α : Type} (s : State) (e : EndpointId) (k : Endpoint → Res α) : Res α :=
  match s.endpoint? e with
  | some x => k x
  | none => .refused (.noEndpoint e)

/-- `recipient[e]`. -/
def State.recipientOf (s : State) (e : EndpointId) : Option EndpointId :=
  (s.endpoint? e).bind (·.recipient)

/-- The device behind an endpoint is replaced. -/
def State.putDevice (s : State) (e : EndpointId) (d : Device) : State :=
  s.modifyEndpoint e (fun x => { x with device := d })

/-! ## Background agents (R79, R80) -/

/-- One write of an agent on an endpoint. -/
def AgentWrite.apply : AgentWrite → Endpoint → Endpoint
  | .ready b, x => { x with ready := b }
  | .busy b, x => { x with busy := b }
  | .statusCode c, x => { x with statusCode := c }
  | .blockSize len cont, x => { x with blockSize := ⟨len.val, cont⟩ }

/-- The agent of an endpoint writes, if the endpoint has one. The device behind the endpoint stays as it is (DESIGN CHOICE,
log 27). -/
def State.agentWrite (s : State) (p : EndpointId × AgentWrite) : State :=
  s.modifyEndpoint p.1 (fun x => if x.runsAgent then p.2.apply x else x)

/-- A point at which background agents may step: the next batch of the script happens. -/
def State.interleave (s : State) : State :=
  match s.agentScript with
  | [] => s
  | batch :: rest => batch.foldl State.agentWrite { s with agentScript := rest }

/-! ## The clock (R8 `now_ns`, R303) -/

/-- Reading the clock: some free time has passed (log 10); the value read is `now` afterwards. -/
def State.tick (s : State) : State :=
  { s with now := s.now + Config.clockAdvance s.clockReads, clockReads := s.clockReads + 1 }

/-! ## The peripheral table -/

/-- The content of a slot. -/
def State.slot (s : State) (k : Slot) : Option Entry := s.peripheralTable[k.val]

/-- A slot gets new content. -/
def State.setSlot (s : State) (k : Slot) (c : Option Entry) : State :=
  { s with peripheralTable := s.peripheralTable.set k.val c }

/-- The card of an occupied slot gets a new state of its own. -/
def State.setCard (s : State) (k : Slot) (ent : Entry) (c : Card) : State :=
  s.setSlot k (some { ent with card := c })

/-- A call on a card is noted (log 23). -/
def State.note (s : State) (c : PeriCall) : State := { s with periCalls := c :: s.periCalls }

end Sys2Proof.Machine
end

