-- ==== Sys2Proof/Machine/Operands.lean ====
section
/-! DEFINITION. The operand forms: addresses (20_memory.md R66), the block-size pair (30_encoding.md R101, R102), the
allocator's units and first fit (41_allocator.md R161, R162), and the arguments and paths of commands
(30_encoding.md R105, R106; 43_command_protocol.md R234). -/

namespace Sys2Proof.Machine

/-! ## Addresses -/

/-- `decode(addr)` (R66). -/
def decodeAddress (memsize : Nat) (addr : Int) : Target :=
  if 0 ≤ addr ∧ addr < (memsize : Int) then .user addr.toNat
  else if -8388608 ≤ addr ∧ addr ≤ -1 then
    let r := (-addr - 1).toNat
    let k := r / Config.reserve
    let off := r % Config.reserve
    if k = 0 then .mmio (Fin.ofNat 8 (off / Config.mmioWin)) (off % Config.mmioWin) else .ram (Fin.ofNat 8 k) off
  else .noMapping

/-- The target of an address word that matches the USER row of R95. -/
def userTarget (memsize : Nat) (a : BitVec 23) : Target :=
  if a.toNat < memsize then .user a.toNat else .noMapping

/-- The target of an address word that matches the row MMIOj of R95: `w = ~A[16:0]` (R93). -/
def mmioTarget (j : Slot) (a : BitVec 17) : Target := .mmio j (~~~a).toNat

/-- The target of an address word that matches the row RAMk of R95: `off = ~A[19:0]` (R93). -/
def ramTarget (k : Slot) (a : BitVec 20) : Target := .ram k (~~~a).toNat

/-! ## The block-size pair -/

/-- The low byte of `encode_pair(n, cont)` (R101): LEN[7:0]. -/
def encodePairLow (v : BlockSize) : Byte := BitVec.ofNat 8 (v.len % 4096 % 256)

/-- The high byte of `encode_pair(n, cont)` (R101): LEN[11:8], CONT at bit 4, ZLEN at bit 5, bits 7:6 zero. -/
def encodePairHigh (v : BlockSize) : Byte :=
  BitVec.ofNat 8 (v.len % 4096 / 256 + 16 * v.cont.toNat + 32 * (decide (v.len = 0)).toNat)

/-- `decode_pair(low, high)` (R101): ZLEN wins over LEN, LEN = 0 without ZLEN is 4096. -/
def decodePair (low high : Byte) : BlockSize :=
  let len := high.toNat % 16 * 256 + low.toNat
  { len := if high.getLsbD 5 then 0 else if len = 0 then 4096 else len
    cont := high.getLsbD 4 }

/-- A write of the low byte of the pair over the image of `v` (R201): a non-zero byte clears ZLEN. -/
def writePairLow (v : BlockSize) (b : Byte) : BlockSize :=
  let high := encodePairHigh v
  decodePair b (if b = 0 then high else high &&& 0xDF)

/-- A write of the high byte of the pair over the image of `v` (R201): bits 7:6 are ignored. -/
def writePairHigh (v : BlockSize) (b : Byte) : BlockSize := decodePair (encodePairLow v) (b &&& 0x3F)

/-! ## Allocator units -/

/-- `ceil_div(size, 64)` (R161), for a positive size. -/
def unitsOf (size : Int) : Nat := (size.toNat + 63) / Config.unitBytes

/-- Whether the `n` bits from index `s` on are all clear. -/
def clearRun (bits : List Bool) (s n : Nat) : Bool := ((bits.drop s).take n).all (!·)

/-- `first_fit(bits, n)` (R162): the least index whose run of `n` clear bits lies inside the bitset. -/
def firstFit (bits : List Bool) (n : Nat) : Option Nat :=
  (List.range (bits.length + 1 - n)).find? (fun s => clearRun bits s n)

/-- Set the bits `s .. s+n-1` to `v`. -/
def setRun (bits : List Bool) (s n : Nat) (v : Bool) : List Bool :=
  bits.mapIdx (fun i b => if s ≤ i ∧ i < s + n then v else b)

/-! ## Command arguments -/

/-- A decimal digit (R105). -/
def isDigit (b : Byte) : Bool := decide (0x30 ≤ b.toNat ∧ b.toNat ≤ 0x39)

/-- The value of decimal digits (R106). -/
def decimalValue (digits : Bytes) : Nat := digits.foldl (fun n b => 10 * n + (b.toNat - 0x30)) 0

/-- `1*DIGIT` (R105, R106): at least one byte, all digits. -/
def parseDigits (digits : Bytes) : Option Nat :=
  if digits ≠ [] ∧ digits.all isDigit then some (decimalValue digits) else none

/-- The argument of OPEN (R105): `"path"`, or `"path",drive`. -/
def parseOpen : Bytes → Option (Bytes × Option Nat)
  | 0x22#8 :: rest =>
    match rest.dropWhile (· != 0x22#8) with
    | [_] => some (rest.takeWhile (· != 0x22#8), none)
    | _ :: 0x2C#8 :: digits => (parseDigits digits).map (fun n => (rest.takeWhile (· != 0x22#8), some n))
    | _ => none
  | _ => none

/-- `dec(n)` (R11): the digits of a number below `10 ^ (fuel + 1)`. -/
def decimalDigits : Nat → Nat → Bytes
  | 0, n => [BitVec.ofNat 8 (0x30 + n % 10)]
  | fuel + 1, n =>
    if n < 10 then [BitVec.ofNat 8 (0x30 + n)]
    else decimalDigits fuel (n / 10) ++ [BitVec.ofNat 8 (0x30 + n % 10)]

/-- `dec(n)` (R11). -/
def decimal (n : Nat) : Bytes := decimalDigits n n

/-! ## Paths -/

/-- A byte sequence split at every `/`. -/
def splitSlash : Bytes → List Bytes
  | [] => [[]]
  | b :: rest =>
    if b = 0x2F#8 then [] :: splitSlash rest
    else
      match splitSlash rest with
      | [] => [[b]]
      | seg :: segs => (b :: seg) :: segs

/-- One segment of a path (R234): empty and `.` are skipped, `..` takes the last segment away or is dropped at the
root, any other segment is added. -/
def pushSegment (stack : Path) (seg : Bytes) : Path :=
  if seg = [] ∨ seg = [0x2E#8] then stack
  else if seg = [0x2E#8, 0x2E#8] then stack.dropLast
  else stack ++ [seg]

/-- `sanitise(raw)` (R234). -/
def sanitise (forbidden raw : Bytes) : Path :=
  let s1 := raw.map (fun b => if b = 0x5C#8 then 0x2F#8 else b)
  let s2 := s1.filter (fun b => !forbidden.contains b)
  (splitSlash s2).foldl pushSegment []

end Sys2Proof.Machine
end

