-- ==== Sys2Proof/Machine/Allocator.lean ====
section
/-! DEFINITION. The fixed-unit bitset allocator (spec/41_allocator.md): MALLOC (R161) and FREE (R163). -/

namespace Sys2Proof.Machine

/-- MALLOC's effect when first fit answers `i`: the run is set and recorded, and the offset is the response (R161). -/
def State.allocate (s : State) (i n : Nat) : State :=
  { s with allocBits := setRun s.allocBits i n true, allocMap := (i, n) :: s.allocMap }.respond
    (.offset (Config.unitBytes * i))

/-- FREE's effect on the live allocation of `n` units at unit `i` (R163). -/
def State.release (s : State) (i n : Nat) : State :=
  { s with allocBits := setRun s.allocBits i n false, allocMap := s.allocMap.filter (fun p => p.1 != i) }.respond .ack

/-- MALLOC(size) (R161): the size check before the search (R297). -/
def execMalloc (size : Int) (s : State) : Res State :=
  requireRunning s <|
    if size ≤ 0 then .next (s.raise .invalidAllocSize size)
    else
      match firstFit s.allocBits (unitsOf size) with
      | none => .next (s.raise .outOfMemory size)
      | some i => .next (s.allocate i (unitsOf size))

/-- FREE(offset) (R163): sign and alignment before the table look-up (R297). -/
def execFree (offset : Int) (s : State) : Res State :=
  requireRunning s <|
    if offset < 0 ∨ offset.toNat % Config.unitBytes ≠ 0 then .next (s.raise .invalidFree offset)
    else
      let i := offset.toNat / Config.unitBytes
      match s.allocMap.lookup i with
      | none => .next (s.raise .invalidFree offset)
      | some n => .next (s.release i n)

end Sys2Proof.Machine
end

