-- ==== Sys2Proof/Machine/Device.lean ====
section
/-! DEFINITION. The command device (spec/43_command_protocol.md): the store calls (R231), one definition for each
command (R235 to R252), data accumulation and commit (R244, R245), and the receive hook (R232, R253). Everything here
is the pure form of R181: it gives the next device and the status code it writes, if it writes one. -/

namespace Sys2Proof.Machine

/-! ## The store (R231) -/

/-- `readOnly`. -/
def Store.readOnly : Store → Bool
  | .fixture ro _ => ro
  | .vendor ro _ _ => ro

/-- What a path of a fixture store names: the root is a directory unless something else is listed for it. -/
def fixtureNode (nodes : List (Path × Node)) (p : Path) : Option Node :=
  match nodes.lookup p with
  | some n => some n
  | none => if p = [] then some .dir else none

/-- The nodes with a path naming `n`. -/
def fixturePut (nodes : List (Path × Node)) (p : Path) (n : Node) : List (Path × Node) :=
  (p, n) :: nodes.filter (fun q => q.1 != p)

/-- A change of a fixture store: an error place answers its error, a guarded directory `Failed`, everything else `Ok`
with the new nodes, also where R247 and R248 leave it to the store to refuse (DESIGN CHOICE, log 18). -/
def fixtureChange (ro : Bool) (nodes : List (Path × Node)) (p : Path) (after : List (Path × Node)) : ChangeResult × Store :=
  match fixtureNode nodes p with
  | some .ioError => (.ioError, .fixture ro nodes)
  | some .secError => (.secError, .fixture ro nodes)
  | some .guarded => (.failed, .fixture ro nodes)
  | some (.file _) => (.ok, .fixture ro after)
  | some .dir => (.ok, .fixture ro after)
  | none => (.ok, .fixture ro after)

/-- A save into a fixture store: an error place answers its error, a guarded directory `IOError`, everything else `Ok` with a
file of the content (DESIGN CHOICE, log 18). -/
def fixtureSave (ro : Bool) (nodes : List (Path × Node)) (p : Path) (content : Bytes) : SaveResult × Store :=
  match fixtureNode nodes p with
  | some .ioError => (.ioError, .fixture ro nodes)
  | some .secError => (.secError, .fixture ro nodes)
  | some .guarded => (.ioError, .fixture ro nodes)
  | some (.file _) => (.ok, .fixture ro (fixturePut nodes p (.file content)))
  | some .dir => (.ok, .fixture ro (fixturePut nodes p (.file content)))
  | none => (.ok, .fixture ro (fixturePut nodes p (.file content)))

/-- A vendor store with its next token. -/
def afterVendor {α : Type} (ro : Bool) (id : Nat) (r : α × Nat) : α × Store := (r.1, .vendor ro id r.2)

/-- `stat(p)`. -/
def Store.stat (p : Path) : Store → StatResult × Store
  | .fixture ro nodes =>
    ( match fixtureNode nodes p with
      | none => .missing
      | some (.file bytes) => .file bytes.length
      | some .dir => .dir
      | some .guarded => .dir
      | some .ioError => .ioError
      | some .secError => .secError,
      .fixture ro nodes )
  | .vendor ro id token => afterVendor ro id (Config.storeStat id token p)

/-- `readAll(p)`. A fixture store answers `IOError` where the path names no file (DESIGN CHOICE, log 18); no command asks it
that, since READ asks `stat` first. -/
def Store.readAll (p : Path) : Store → FetchResult × Store
  | .fixture ro nodes =>
    ( match fixtureNode nodes p with
      | some (.file bytes) => .ok bytes
      | some .secError => .secError
      | some .dir => .ioError
      | some .guarded => .ioError
      | some .ioError => .ioError
      | none => .ioError,
      .fixture ro nodes )
  | .vendor ro id token => afterVendor ro id (Config.storeReadAll id token p)

/-- `writeAll(p, bytes)`. -/
def Store.writeAll (p : Path) (bytes : Bytes) : Store → SaveResult × Store
  | .fixture ro nodes => fixtureSave ro nodes p bytes
  | .vendor ro id token => afterVendor ro id (Config.storeWriteAll id token p bytes)

/-- The content of a file of a fixture store, nothing if there is none (log 18). -/
def fixtureContent (nodes : List (Path × Node)) (p : Path) : Bytes :=
  match fixtureNode nodes p with
  | some (.file bytes) => bytes
  | some .dir => []
  | some .guarded => []
  | some .ioError => []
  | some .secError => []
  | none => []

/-- `append(p, bytes)`. -/
def Store.append (p : Path) (bytes : Bytes) : Store → SaveResult × Store
  | .fixture ro nodes => fixtureSave ro nodes p (fixtureContent nodes p ++ bytes)
  | .vendor ro id token => afterVendor ro id (Config.storeAppend id token p bytes)

/-- `delete(p)`. -/
def Store.delete (p : Path) : Store → ChangeResult × Store
  | .fixture ro nodes => fixtureChange ro nodes p (nodes.filter (fun q => q.1 != p))
  | .vendor ro id token => afterVendor ro id (Config.storeDelete id token p)

/-- `mkdir(p)`. -/
def Store.mkdir (p : Path) : Store → ChangeResult × Store
  | .fixture ro nodes => fixtureChange ro nodes p (fixturePut nodes p .dir)
  | .vendor ro id token => afterVendor ro id (Config.storeMkdir id token p)

/-- `mkfile(p)`. -/
def Store.mkfile (p : Path) : Store → ChangeResult × Store
  | .fixture ro nodes => fixtureChange ro nodes p (fixturePut nodes p (.file []))
  | .vendor ro id token => afterVendor ro id (Config.storeMkfile id token p)

/-- `touch(p)`: a fixture store keeps no time stamps. -/
def Store.touch (p : Path) : Store → ChangeResult × Store
  | .fixture ro nodes => fixtureChange ro nodes p nodes
  | .vendor ro id token => afterVendor ro id (Config.storeTouch id token p)

/-- `list(p)`: the format of a fixture store's listing is a free value (U20, log 18). A fixture store answers `IOError` where
the path names no directory (DESIGN CHOICE, log 18); no command asks it that, since LISTFILES asks `stat` first. -/
def Store.list (p : Path) : Store → FetchResult × Store
  | .fixture ro nodes =>
    ( match fixtureNode nodes p with
      | some .secError => .secError
      | some .ioError => .ioError
      | some .dir => .ok (Config.fixtureListing nodes p)
      | some .guarded => .ok (Config.fixtureListing nodes p)
      | some (.file _) => .ioError
      | none => .ioError,
      .fixture ro nodes )
  | .vendor ro id token => afterVendor ro id (Config.storeList id token p)

/-! ## Status codes (R108) -/

abbrev stOk : Int := 0
abbrev stFail : Int := 1
abbrev stIllegal : Int := 128
abbrev stNoFile : Int := 129
abbrev stAlreadyOpen : Int := 130
abbrev stNotPermitted : Int := 131
abbrev stReadOnly : Int := 132
abbrev stNotAFile : Int := 133
abbrev stNotADir : Int := 134
abbrev stNoHandle : Int := 135
abbrev stIoError : Int := 192
abbrev stSecurity : Int := 193

/-- The status of a change (R247 to R250). -/
def changeStatus : ChangeResult → Int
  | .ok => stOk
  | .failed => stFail
  | .ioError => stIoError
  | .secError => stSecurity

/-- The status of a commit (R245). -/
def saveStatus : SaveResult → Int
  | .ok => stOk
  | .ioError => stIoError
  | .secError => stSecurity

/-! ## Helpers of R230 -/

/-- What a device does with a payload: its next state, and the status code it writes, if any. -/
abbrev DeviceResult := CommandDevice × Option Int

/-- `st(c)` as the last action of a command. -/
def CommandDevice.st (d : CommandDevice) (c : Int) : DeviceResult := (d, some c)

/-- `stage(bytes)` (R230). -/
def CommandDevice.stage (d : CommandDevice) (bytes : Bytes) : CommandDevice :=
  { d with session := { d.session with sendBuffer := bytes, sendPos := 0 } }

/-- The device with its store after a call. -/
def CommandDevice.putStore (d : CommandDevice) (s : Store) : CommandDevice := { d with store := s }

/-- `MSG[d][129]` (R43): "NO SUCH FILE EXISTS". -/
def noSuchFileMessage : Bytes :=
  [0x4E, 0x4F, 0x20, 0x53, 0x55, 0x43, 0x48, 0x20, 0x46, 0x49, 0x4C, 0x45, 0x20, 0x45, 0x58, 0x49, 0x53, 0x54, 0x53]

/-- `MSG[d][c]` (R8, R43, log 22). -/
def CommandDevice.message (d : CommandDevice) (c : Byte) : Bytes :=
  if c = 0x81#8 then noSuchFileMessage else (d.messages.lookup c).getD []

/-- `need_path` (43_command_protocol.md section 4). -/
def CommandDevice.needPath (d : CommandDevice) (k : Path → DeviceResult) : DeviceResult :=
  match d.session.curPath with
  | none => d.st stNoHandle
  | some p => k p

/-- `if Store.readOnly then st(132) ; stop`. -/
def CommandDevice.needWritable (d : CommandDevice) (r : DeviceResult) : DeviceResult :=
  if d.store.readOnly then d.st stReadOnly else r

/-! ## Device commands -/

/-- `DEVRST` (R235). -/
def devrst (d : CommandDevice) : DeviceResult := CommandDevice.st { d with session := Session.reset } stOk

/-- `DEVSTU` (R236): the status as one raw byte, the separator, the message, the end-of-block byte. -/
def devstu (status : Int) (d : CommandDevice) : DeviceResult :=
  let c : Byte := BitVec.ofInt 8 status
  (d.stage ([c] ++ [Config.us] ++ d.message c ++ [Config.eob]), none)

/-- `DEVTYP` (R237). -/
def devtyp (d : CommandDevice) : DeviceResult := (d.stage (d.devType ++ [Config.eob]), none)

/-- `DEVNAM` (R238). -/
def devnam (d : CommandDevice) : DeviceResult := (d.stage (d.devName ++ [Config.eob]), none)

/-! ## Open, read, write, close -/

/-- The checks every OPEN begins with (R239 to R241): the grammar, then the open handle; then `curPath` and `drive` are
set and `k` goes on with the path. -/
def openWith (arg : Bytes) (d : CommandDevice) (k : Path → CommandDevice → DeviceResult) : DeviceResult :=
  match parseOpen arg with
  | none => d.st stIllegal
  | some (raw, drive) =>
    if d.session.fileOpen then d.st stAlreadyOpen
    else
      let p := sanitise d.forbidden raw
      k p { d with session := { d.session with curPath := some p, drive := drive } }

/-- The handle is open in a mode. -/
def CommandDevice.opened (d : CommandDevice) (mode : OpenMode) : CommandDevice :=
  { d with session := { d.session with fileOpen := true, openMode := mode } }

/-- `OPENR` (R239). -/
def openr (arg : Bytes) (d : CommandDevice) : DeviceResult :=
  openWith arg d fun p d =>
    let (r, store) := d.store.stat p
    let d := d.putStore store
    match r with
    | .ioError => d.st stIoError
    | .secError => d.st stSecurity
    | .missing => d.st stNoFile
    | .file _ => (d.opened .r).st stOk
    | .dir => (d.opened .r).st stOk

/-- `OPENW` (R240). -/
def openw (arg : Bytes) (d : CommandDevice) : DeviceResult :=
  openWith arg d fun _ d => d.needWritable ((d.opened .w).st stOk)

/-- `OPENA` (R241). -/
def opena (arg : Bytes) (d : CommandDevice) : DeviceResult :=
  openWith arg d fun _ d => d.needWritable ((d.opened .a).st stOk)

/-- The path of an open handle: `curPath` (R242, R245). OPEN has set it before `fileOpen` becomes true. -/
def CommandDevice.handlePath (d : CommandDevice) : Path := d.session.curPath.getD []

/-- `READ` (R242). -/
def readFile (d : CommandDevice) : DeviceResult :=
  if !d.session.fileOpen then d.st stNoHandle
  else if d.session.openMode ≠ .r then d.st stNotPermitted
  else
    let p := d.handlePath
    let (r, store) := d.store.stat p
    let d := d.putStore store
    match r with
    | .ioError => d.st stIoError
    | .secError => d.st stSecurity
    | .missing => d.st stNotPermitted
    | .dir => d.st stNotPermitted
    | .file _ =>
      let (r, store) := d.store.readAll p
      let d := d.putStore store
      match r with
      | .ioError => d.st stIoError
      | .secError => d.st stSecurity
      | .ok bytes => (d.stage bytes).st stOk

/-- `commit()` (R245). -/
def commit (d : CommandDevice) : DeviceResult :=
  let p := d.handlePath
  let (r, store) :=
    if d.session.openMode = .w then d.store.writeAll p d.session.writeBuffer
    else d.store.append p d.session.writeBuffer
  CommandDevice.st
    { d with
      store := store
      session := { d.session with accumulating := false, writeBuffer := [], writeBufferUsage := 0 } }
    (saveStatus r)

/-- `WRITE<N>` (R243). -/
def writeFile (arg : Bytes) (d : CommandDevice) : DeviceResult :=
  match parseDigits arg with
  | none => d.st stIllegal
  | some n =>
    if !d.session.fileOpen then d.st stNoHandle
    else if d.session.openMode = .r then d.st stNotPermitted
    else
      let d := { d with session := { d.session with writeBuffer := [], writeBufferUsage := 0, writeTarget := n } }
      if n = 0 then commit d
      else CommandDevice.st { d with session := { d.session with accumulating := true } } stOk

/-- `accept_data(payload)` (R244). -/
def acceptData (payload : Bytes) (d : CommandDevice) : DeviceResult :=
  let take := min payload.length (d.session.writeTarget - d.session.writeBufferUsage)
  let d :=
    { d with
      session :=
        { d.session with
          writeBuffer := d.session.writeBuffer ++ payload.take take
          writeBufferUsage := d.session.writeBufferUsage + take } }
  if d.session.writeBufferUsage = d.session.writeTarget then commit d else (d, none)

/-- `CLOSE` (R246). -/
def closeFile (d : CommandDevice) : DeviceResult :=
  CommandDevice.st { d with session := { d.session with fileOpen := false } } stOk

/-! ## Filesystem-style commands -/

/-- The common tail of `DELETE` and `TOUCH` (R247, R250): `stat`, then the change on what exists. -/
def changeExisting (p : Path) (d : CommandDevice) (change : Store → ChangeResult × Store) : DeviceResult :=
  let (r, store) := d.store.stat p
  let d := d.putStore store
  match r with
  | .ioError => d.st stIoError
  | .secError => d.st stSecurity
  | .missing => d.st stNoFile
  | .file _ => let (r, store) := change d.store; (d.putStore store).st (changeStatus r)
  | .dir => let (r, store) := change d.store; (d.putStore store).st (changeStatus r)

/-- `DELETE` (R247). -/
def deletePath (d : CommandDevice) : DeviceResult :=
  d.needPath fun p => d.needWritable (changeExisting p d (Store.delete p))

/-- `MKDIR` (R248). -/
def mkdirPath (d : CommandDevice) : DeviceResult :=
  d.needPath fun p => d.needWritable <|
    let (r, store) := d.store.mkdir p
    (d.putStore store).st (changeStatus r)

/-- `MKFILE` (R249). -/
def mkfilePath (d : CommandDevice) : DeviceResult :=
  d.needPath fun p => d.needWritable <|
    let (r, store) := d.store.mkfile p
    (d.putStore store).st (changeStatus r)

/-- `TOUCH` (R250). -/
def touchPath (d : CommandDevice) : DeviceResult :=
  d.needPath fun p => d.needWritable (changeExisting p d (Store.touch p))

/-- `LISTFILES` (R251). -/
def listFiles (d : CommandDevice) : DeviceResult :=
  d.needPath fun p =>
    let (r, store) := d.store.stat p
    let d := d.putStore store
    match r with
    | .ioError => d.st stIoError
    | .secError => d.st stSecurity
    | .missing => d.st stNoFile
    | .file _ => d.st stNotADir
    | .dir =>
      let (r, store) := d.store.list p
      let d := d.putStore store
      match r with
      | .ok bytes => (d.stage (bytes ++ [Config.eob])).st stOk
      | .ioError => d.st stIoError
      | .secError => d.st stSecurity

/-- `GETLEN` (R252). -/
def getLen (d : CommandDevice) : DeviceResult :=
  d.needPath fun p =>
    let (r, store) := d.store.stat p
    let d := d.putStore store
    match r with
    | .ioError => d.st stIoError
    | .secError => d.st stSecurity
    | .missing => d.st stNoFile
    | .dir => d.st stNotAFile
    | .file len => (d.stage (decimal len ++ [Config.eob])).st stOk

/-! ## Selection and the receive hook -/

/-- The rule of a selected command (R253). -/
def runKeyword (arg : Bytes) (status : Int) (d : CommandDevice) : Keyword → DeviceResult
  | .devrst => devrst d
  | .devstu => devstu status d
  | .devtyp => devtyp d
  | .devnam => devnam d
  | .openr => openr arg d
  | .openw => openw arg d
  | .opena => opena arg d
  | .read => readFile d
  | .write => writeFile arg d
  | .close => closeFile d
  | .delete => deletePath d
  | .mkdir => mkdirPath d
  | .mkfile => mkfilePath d
  | .touch => touchPath d
  | .listfiles => listFiles d
  | .getlen => getLen d

/-- The illegal command (R253). -/
def illegalCommand (d : CommandDevice) : DeviceResult := d.st stIllegal

/-- `execute(text)` (R253). -/
def executeText (text : Bytes) (status : Int) (d : CommandDevice) : DeviceResult :=
  match selectKeyword text with
  | some (k, arg) => runKeyword arg status d k
  | none => illegalCommand d

/-- `consumeBlock_d` (R232) on the payload `frame[0..n)`, where `run` is what the device does with a command text. -/
def consumeWith (run : Bytes → Int → CommandDevice → DeviceResult) (payload : Bytes) (status : Int)
    (d : CommandDevice) : DeviceResult :=
  if d.session.accumulating then acceptData payload d else run (commandText payload) status d

/-- `consumeBlock_d` (R232). -/
def consumeCommand (payload : Bytes) (status : Int) (d : CommandDevice) : DeviceResult :=
  consumeWith executeText payload status d

/-- The next chunk of `sendBuffer` (R254): what `produceBlock_d` sends, and the device after it. -/
def produceCommand (d : CommandDevice) : Bytes × CommandDevice :=
  let n := min Config.block (d.session.sendBuffer.length - d.session.sendPos)
  ( (d.session.sendBuffer.drop d.session.sendPos).take n,
    { d with session := { d.session with sendPos := d.session.sendPos + n } } )

/-- `hasNext_d()` (R255). -/
def hasNextCommand (d : CommandDevice) : Bool := decide (d.session.sendPos < d.session.sendBuffer.length)

end Sys2Proof.Machine
end

