-- ==== Sys2Proof/Machine/Flags.lean ====
section
/-! DEFINITION. The flags of an endpoint: `busy`, `ready`, `statusCode`, `blockSize` as single atomic accesses, with a
point for background agents before each (20_memory.md R79, R80), the order of the flag writes of a transfer
(10_state.md R32, 42_link_engine.md R185, R187), and the bus-status byte (30_encoding.md R99). -/

namespace Sys2Proof.Machine

/-- `atomic busy[e] <- b`. -/
def State.putBusy (s : State) (e : EndpointId) (b : Bool) : State :=
  s.interleave.modifyEndpoint e (fun x => { x with busy := b })

/-- `atomic ready[e] <- b`. -/
def State.putReady (s : State) (e : EndpointId) (b : Bool) : State :=
  s.interleave.modifyEndpoint e (fun x => { x with ready := b })

/-- `atomic statusCode[e] <- c`. -/
def State.putStatus (s : State) (e : EndpointId) (c : Int) : State :=
  s.interleave.modifyEndpoint e (fun x => { x with statusCode := c })

/-- `atomic blockSize[e] <- v`. -/
def State.putBlockSize (s : State) (e : EndpointId) (v : BlockSize) : State :=
  s.interleave.modifyEndpoint e (fun x => { x with blockSize := v })

/-- `(oldLen, oldCont) <- atomic read blockSize[e]`, then `atomic blockSize[e] <- (n, oldCont)` (R187). -/
def State.putReceivedLen (s : State) (e : EndpointId) (n : Nat) : State :=
  let s1 := s.interleave
  let oldCont := ((s1.endpoint? e).map (·.blockSize.cont)).getD false
  s1.putBlockSize e ⟨n, oldCont⟩

/-- IDLE to TRANSFERRING: busy first, ready second (R185, R187). -/
def State.enterTransfer (s : State) (e : EndpointId) : State := (s.putBusy e true).putReady e false

/-- TRANSFERRING to IDLE: busy first, ready second (R185, R187). -/
def State.leaveTransfer (s : State) (e : EndpointId) : State := (s.putBusy e false).putReady e true

/-- `sendmode[e] <- b`: not a shared field (R35, R37). -/
def State.putSendmode (s : State) (e : EndpointId) (b : Bool) : State :=
  s.modifyEndpoint e (fun x => { x with sendmode := b })

/-- The bus-status byte (R99, R198): bits 7:6 are 0. -/
def statusByte (cable ready busy sendmode isMaster isSlave : Bool) : Byte :=
  BitVec.ofNat 8 (cable.toNat + 2 * ready.toNat + 4 * busy.toNat + 8 * sendmode.toNat + 16 * isMaster.toNat
    + 32 * isSlave.toNat)

/-- The direction bit of a value written to the bus-status byte (R199): bit 3, 1 = send. -/
def directionBit (v : Byte) : Bool := v.getLsbD 3

/-- The start trigger of a value written to the bus-status byte (R199): bit 2. -/
def triggerBit (v : Byte) : Bool := v.getLsbD 2

end Sys2Proof.Machine
end

