-- ==== Sys2Proof/Machine/Link.lean ====
section
/-! DEFINITION. The block-transfer protocol engine (spec/42_link_engine.md): the device hooks (R181), the baud delay
(R196), WRITEOUT, START_SEND, START_READ and the receive loop as nested operations, the register views of a serial port
(R198 to R201), and the eight operations of format LINK. -/

namespace Sys2Proof.Machine

/-! ## The baud delay (R196) -/

/-- `expected_ns` (R196). -/
def expectedNs (bytes baud : Nat) : Nat := bytes * Config.bitsPerByte * Config.nsPerSecond / baud

/-- The accumulator before the threshold test. -/
def deficit (acc : Int) (bytes baud elapsed : Nat) : Int := acc + expectedNs bytes baud - elapsed

/-- The accumulator after the delay step, and the nanoseconds slept (R196). -/
def delayStep (acc : Int) (bytes baud elapsed : Nat) : Int × Nat :=
  if bytes = 0 then (acc, 0)
  else
    let acc' := deficit acc bytes baud elapsed
    (if Config.sleepThresholdNs < acc' then 0 else acc', if Config.sleepThresholdNs < acc' then acc'.toNat else 0)

/-- `baud_delay(e, bytes, t0)` (R196). With no byte nothing is read, written or slept. -/
def baudDelay (e : EndpointId) (bytes t0 : Nat) (s : State) : State :=
  if bytes = 0 then s
  else
    let s1 := s.tick
    let elapsed := s1.now - t0
    let amount := ((s1.endpoint? e).map (fun x => (delayStep x.delayAcc bytes x.baud elapsed).2)).getD 0
    { s1.modifyEndpoint e (fun x => { x with delayAcc := (delayStep x.delayAcc bytes x.baud elapsed).1 }) with
      now := s1.now + amount
      slept := s1.slept + amount }

/-! ## The device hooks (R181) -/

/-- What the device behind an endpoint does with a command text. -/
abbrev RunCommand := Bytes → Int → CommandDevice → DeviceResult

/-- The device and the status a device's receive hook leaves. -/
def applyConsumed (e : EndpointId) (d : Device) (status : Option Int) (s : State) : State :=
  match status with
  | none => s.putDevice e d
  | some c => (s.putDevice e d).putStatus e c

/-- `consumeBlock_e` on a payload (R181 (b), R202, R232). A vendor device keeps what it receives in its own token; the token of
the card that owns the endpoint stays as it is (DESIGN CHOICE, log 29). -/
def consumeBlock (run : RunCommand) (e : EndpointId) (payload : Bytes) (s : State) : Res State :=
  withEndpoint s e fun x =>
    match x.device with
    | .reference tx rx => .next (applyConsumed e (.reference tx (rx ++ payload)) none s)
    | .command d =>
      let r := consumeWith run payload x.statusCode d
      .next (applyConsumed e (.command r.1) r.2 s)
    | .vendor id token =>
      match Config.hookConsume id token payload with
      | some (token', status) => .next (applyConsumed e (.vendor id token') status s)
      | none => .fault (.neverReturns (.device e))

/-- `hasNext_e()` (R181 (c), R202, R255). A query that changes nothing: two in a row with no other hook of the device between
them answer the same, also behind an endpoint with a background agent (DESIGN CHOICE, log 27). -/
def hasNextOf (e : EndpointId) (d : Device) : Res Bool :=
  match d with
  | .reference tx _ => .next (decide (0 < tx.length))
  | .command d => .next (hasNextCommand d)
  | .vendor id token =>
    match Config.hookHasNext id token with
    | some b => .next b
    | none => .fault (.neverReturns (.device e))

/-- What `produceBlock_e` picks to send, and the device after it (R181 (a), R202, R254). A vendor device that produces
more than 4096 bytes breaks the contract (U8). -/
def produceOf (e : EndpointId) (x : Endpoint) : Res (Bytes × Device) :=
  match x.device with
  | .reference tx rx =>
    let n := min Config.block tx.length
    .next (tx.take n, .reference (tx.drop n) rx)
  | .command d => .next ((produceCommand d).1, .command (produceCommand d).2)
  | .vendor id token =>
    match Config.hookProduce id token x.blockSize.len with
    | none => .fault (.neverReturns (.device e))
    | some (data, token') =>
      if data.length ≤ Config.block then .next (data, .vendor id token') else .refused (.hookContract e)

/-! ## Transfers -/

/-- The frame of a block (R98, R191): the data, zero-padded to 4096 bytes. -/
def frameOf (data : Bytes) : Bytes :=
  data.take Config.block ++ List.replicate (Config.block - min data.length Config.block) 0

/-- WRITEOUT(f, data) (R187), where `run` is what a command device does with the command text of the payload. -/
def writeoutWith (run : RunCommand) (f : EndpointId) (data : Bytes) (s : State) : Res State :=
  withEndpoint s f fun _ =>
    let s0 := s.tick
    let t0 := s0.now
    let n := min data.length Config.block
    let s1 := (s0.enterTransfer f).putReceivedLen f n
    let s2 := { s1 with wire := some ⟨f, frameOf data, n⟩ }
    andThen (consumeBlock run f ((frameOf data).take n) s2) fun s3 =>
      .next ((baudDelay f n t0 s3).leaveTransfer f)

/-- WRITEOUT(f, data) (R187). -/
def writeout (f : EndpointId) (data : Bytes) (s : State) : Res State := writeoutWith executeText f data s

/-- `produceBlock_e(f)` (R181 (a)): the hook picks the data, performs one WRITEOUT on `f` and returns the count. -/
def produceBlock (e f : EndpointId) (s : State) : Res (State × Nat) :=
  withEndpoint s e fun x =>
    andThen (produceOf e x) fun (data, d) =>
      andThen (writeout f data (s.putDevice e d)) fun s' => .next (s', data.length)

/-- `hasNext_e()` in a state. -/
def hasNextHook (e : EndpointId) (s : State) : Res Bool := withEndpoint s e fun x => hasNextOf e x.device

/-- START_SEND(e) (R185). -/
def startSend (e : EndpointId) (s : State) : Res State :=
  withEndpoint s e fun _ =>
    let s0 := s.tick
    let t0 := s0.now
    let s1 := s0.enterTransfer e
    match s1.recipientOf e with
    | none => .next (s1.leaveTransfer e)
    | some f =>
      andThen (produceBlock e f s1) fun (s2, count) =>
        andThen (hasNextHook e s2) fun more =>
          .next ((baudDelay e count t0 (s2.putBlockSize e ⟨count, more⟩)).leaveTransfer e)

/-- START_READ(e) (R186). -/
def startRead (e : EndpointId) (s : State) : Res State :=
  withEndpoint s e fun x =>
    match x.recipient with
    | none => .next s
    | some f => startSend f s

/-! ## CABLE -/

/-- `CABLE(e)` (R184). A recipient that no longer exists is not connected (log 14). -/
def cableConnected (s : State) (e : EndpointId) : Bool :=
  match s.recipientOf e with
  | none => false
  | some f => decide (s.recipientOf f = some e)

/-! ## The receive loop (R189) -/

/-- `payload` of one iteration: the first `n` bytes of the frame that this iteration's transfer put on the wire for `e`,
nothing when it went elsewhere. -/
def deliveredTo (e : EndpointId) (n : Nat) (s : State) : Bytes :=
  match s.wire with
  | some w => if w.dest = e then w.frame.take n else []
  | none => []

/-- One iteration: START_READ(e), then one atomic read of the peer's count and continuation flag. -/
def recvRound (e peer : EndpointId) (s : State) : Res (State × Bytes × Bool) :=
  andThen (startRead e { s with wire := none }) fun s1 =>
    let s2 := s1.interleave
    withEndpoint s2 peer fun y => .next (s2, deliveredTo e y.blockSize.len s1, y.blockSize.cont)

/-- One turn of the loop: its outcome when the iteration ends it, else what the next turn starts from. -/
def recvTurn (e peer : EndpointId) (buf : Bytes) (s : State) : Res State ⊕ (Bytes × State) :=
  match recvRound e peer s with
  | .next (s', payload, more) =>
    if more then .inr (buf ++ payload, s') else .inl (.next (s'.respond (.bytes (buf ++ payload))))
  | .fault f => .inl (.fault f)
  | .refused f => .inl (.refused f)

/-- The loop, without a bound (R189). It is `none` exactly where no number of turns ends it
(`recvLoop_eq_some_iff`): a peer whose continuation flag never clears (R300). -/
def recvLoop (e peer : EndpointId) (buf : Bytes) (s : State) : Option (Res State) :=
  match recvTurn e peer buf s with
  | .inl r => some r
  | .inr (buf', s') => recvLoop e peer buf' s'
partial_fixpoint

/-- The loop, followed for at most so many turns: `none` when they do not end it. -/
def recvWithin : Nat → EndpointId → EndpointId → Bytes → State → Option (Res State)
  | 0, _, _, _, _ => none
  | turns + 1, e, peer, buf, s =>
    match recvTurn e peer buf s with
    | .inl r => some r
    | .inr (buf', s') => recvWithin turns e peer buf' s'

/-- As many turns as the peer's device has blocks queued, at least one. -/
def queuedTurns (peer : EndpointId) (s : State) : Nat :=
  match s.endpoint? peer with
  | none => 1
  | some x =>
    match x.device with
    | .reference tx _ => max 1 ((tx.length + 4095) / Config.block)
    | .command d => max 1 ((d.session.sendBuffer.length - d.session.sendPos + 4095) / Config.block)
    | .vendor _ _ => 1

/-- The peer's continuation flag is set and stays so: its START_SEND ends before it writes the flag, for want of a
recipient (R185), and it has no background agent. -/
def flagStays (peer : EndpointId) (s : State) : Bool :=
  match s.endpoint? peer with
  | none => false
  | some x => decide (x.recipient = none) && !x.bgAgent && x.blockSize.cont

/-- The loop of a RECV_MESSAGE from its start: its outcome where it ends, stuck where it does not (R300). The first two cases
agree with the third (`recvMessage_eq`); they stand here because they can be evaluated (log 15). -/
def recvMessage (e peer : EndpointId) (s : State) : Res State :=
  if flagStays peer s then .fault (.neverReturns (.flag peer))
  else
    match recvWithin (queuedTurns peer s) e peer [] s with
    | some r => r
    | none => (recvLoop e peer [] s).getD (.fault (.neverReturns (.flag peer)))

/-! ## The register views of a serial port -/

/-- A register of a serial port (42_link_engine.md section 5). -/
inductive PortRegister where
  | status (e : EndpointId)
  | pairLow (e : EndpointId)
  | pairHigh (e : EndpointId)
  deriving DecidableEq, Repr

/-- The port register at an MMIO offset, if there is one: the first port that has it (log 16). -/
def portRegister : List Port → Nat → Option PortRegister
  | [], _ => none
  | p :: rest, m =>
    if m = p.statusOff then some (.status p.ep)
    else if m = p.blkszOff then some (.pairLow p.ep)
    else if m = p.blkszOff + 1 then some (.pairHigh p.ep)
    else portRegister rest m

/-- Read of the bus-status byte (R198): `ready` is read first, then `busy`. -/
def readStatus (e : EndpointId) (s : State) : Res (State × Byte) :=
  withEndpoint s e fun x =>
    let s1 := s.interleave
    let ready := ((s1.endpoint? e).map (·.ready)).getD false
    let s2 := s1.interleave
    let busy := ((s2.endpoint? e).map (·.busy)).getD false
    .next (s2, statusByte (cableConnected s e) ready busy x.sendmode x.isMaster x.isSlave)

/-- `view(e)` (R200): one atomic read of the peer's `blockSize`. A peer that no longer exists has none (U12). -/
def pairView (e : EndpointId) (s : State) : Res (State × BlockSize) :=
  withEndpoint s e fun x =>
    match x.recipient with
    | none => .next (s, ⟨0, false⟩)
    | some f =>
      let s1 := s.interleave
      withEndpoint s1 f fun y => .next (s1, y.blockSize)

/-- `mmio_read` of a port register (R198, R200). -/
def readPort (r : PortRegister) (s : State) : Res (State × Byte) :=
  match r with
  | .status e => readStatus e s
  | .pairLow e => andThen (pairView e s) fun (s', v) => .next (s', encodePairLow v)
  | .pairHigh e => andThen (pairView e s) fun (s', v) => .next (s', encodePairHigh v)

/-- Write of the bus-status byte (R199). -/
def writeStatus (e : EndpointId) (v : Byte) (s : State) : Res State :=
  withEndpoint s e fun _ =>
    let s1 := s.putSendmode e (directionBit v)
    if triggerBit v then (if directionBit v then startSend e s1 else startRead e s1) else .next s1

/-- `blockSize[e]` is read, changed by `g` and written (R201): two atomic accesses. -/
def rewriteBlockSize (e : EndpointId) (g : BlockSize → BlockSize) (s : State) : Res State :=
  let s1 := s.interleave
  withEndpoint s1 e fun x => .next (s1.putBlockSize e (g x.blockSize))

/-- `mmio_write` of a port register (R199, R201). -/
def writePort (r : PortRegister) (v : Byte) (s : State) : Res State :=
  match r with
  | .status e => writeStatus e v s
  | .pairLow e => rewriteBlockSize e (fun b => writePairLow b v) s
  | .pairHigh e => rewriteBlockSize e (fun b => writePairHigh b v) s

/-! ## The operations of format LINK -/

/-- An operation's last line `return Ack`. -/
def ackAfter (r : Res State) : Res State := andThen r fun s => .next (s.respond .ack)

/-- ATTACH(e, f) (R182), in either run state; ATTACH(e, e) is refused (U9). -/
def execAttach (e f : EndpointId) (s : State) : Res State :=
  if e = f then .refused .selfAttach
  else
    withEndpoint s e fun _ => withEndpoint s f fun _ =>
      .next (((s.modifyEndpoint e (fun x => { x with recipient := some f })).modifyEndpoint f
        (fun x => { x with recipient := some e })).respond .ack)

/-- DETACH(e) (R183), in either run state. -/
def execDetach (e : EndpointId) (s : State) : Res State :=
  withEndpoint s e fun _ => .next ((s.modifyEndpoint e (fun x => { x with recipient := none })).respond .ack)

/-- CABLE(e) (R184), an IF-LINK operation accepted while RUNNING (R26, log 13). -/
def execCable (e : EndpointId) (s : State) : Res State :=
  requireRunning s <| withEndpoint s e fun _ => .next (s.respond (.bool (cableConnected s e)))

/-- START_SEND(e) (R185). -/
def execStartSend (e : EndpointId) (s : State) : Res State := requireRunning s (ackAfter (startSend e s))

/-- START_READ(e) (R186). -/
def execStartRead (e : EndpointId) (s : State) : Res State := requireRunning s (ackAfter (startRead e s))

/-- WRITEOUT(e, data) (R187). -/
def execWriteout (e : EndpointId) (data : Bytes) (s : State) : Res State :=
  requireRunning s (ackAfter (writeout e data s))

/-- HAS_NEXT(e) (R188), an IF-LINK operation accepted while RUNNING (R26, log 13). -/
def execHasNext (e : EndpointId) (s : State) : Res State :=
  requireRunning s <| andThen (hasNextHook e s) fun b => .next (s.respond (.bool b))

/-- RECV_MESSAGE(e) (R189). -/
def execRecvMessage (e : EndpointId) (s : State) : Res State :=
  requireRunning s <| withEndpoint s e fun x =>
    match x.recipient with
    | none => .next (s.respond (.bytes []))
    | some f => recvMessage e f s

end Sys2Proof.Machine
end

