-- ==== Sys2Proof/Machine/Bus.lean ====
section
/-! DEFINITION. The dispatcher (spec/20_memory.md, spec/40_bus_access.md): the calls on cards (R134 to R138), READ and
WRITE (R130, R131), and the address patterns of format ADDR (30_encoding.md R95). -/

namespace Sys2Proof.Machine

/-! ## Calls on cards -/

/-- Whether a card shows the serial ports' registers when it is in PORT_SLOT: every card but the fixture REGCARD, whose
`mmio_read` is wholly given (log 16). -/
def Card.hostsPorts : Card → Bool
  | .reg _ _ => false
  | .blank => true
  | .vendor _ _ => true

/-- The port register at MMIO offset `m` of the card in slot `j`. -/
def State.portAt (s : State) (j : Slot) (c : Card) (m : Nat) : Option PortRegister :=
  if j = s.params.portSlot ∧ c.hostsPorts then portRegister s.params.ports m else none

/-- `peek(off)` of the card in slot `k` (R135). A vendor card answers from its own token, in which nothing stands of what an
endpoint of the card has received or has to send (DESIGN CHOICE, log 29). -/
def cardPeek (k : Slot) (ent : Entry) (off : Nat) (s : State) : Res (State × Option Byte) :=
  let s := s.note (.peek k off)
  match ent.card with
  | .reg ram _ => .next (s, some ((Memory.read ram off).getD 0))
  | .blank => .next (s, none)
  | .vendor id token =>
    match Config.cardPeek id token off with
    | some (v, token') => .next (s.setCard k ent (.vendor id token'), v)
    | none => .fault (.neverReturns (.card k))

/-- `poke(off, byte)` of the card in slot `k` (R136). -/
def cardPoke (k : Slot) (ent : Entry) (off : Nat) (byte : Byte) (s : State) : Res State :=
  let s := s.note (.poke k off byte)
  match ent.card with
  | .reg ram regs => .next (s.setCard k ent (.reg (Memory.write ram off byte) regs))
  | .blank => .next s
  | .vendor id token =>
    match Config.cardPoke id token off byte with
    | some token' => .next (s.setCard k ent (.vendor id token'))
    | none => .fault (.neverReturns (.card k))

/-- The card's own part of `mmio_read(m)` (R137). A vendor card answers from its own token, in which nothing stands of what an
endpoint of the card has received or has to send (DESIGN CHOICE, log 29). -/
def cardRegisterRead (j : Slot) (ent : Entry) (m : Nat) (s : State) : Res (State × Option Byte) :=
  match ent.card with
  | .reg _ regs => .next (s, some ((Memory.read regs m).getD 0))
  | .blank => .next (s, none)
  | .vendor id token =>
    match Config.cardMmioRead id token m with
    | some (v, token') => .next (s.setCard j ent (.vendor id token'), v)
    | none => .fault (.neverReturns (.card j))

/-- The card's own part of `mmio_write(m, byte)` (R138). -/
def cardRegisterWrite (j : Slot) (ent : Entry) (m : Nat) (byte : Byte) (s : State) : Res State :=
  match ent.card with
  | .reg ram regs => .next (s.setCard j ent (.reg ram (Memory.write regs m byte)))
  | .blank => .next s
  | .vendor id token =>
    match Config.cardMmioWrite id token m byte with
    | some token' => .next (s.setCard j ent (.vendor id token'))
    | none => .fault (.neverReturns (.card j))

/-- `mmio_read(m)` of the card in slot `j` (R137). Whatever the card does inside the call happens at every offset (R76). Where
the card shows a port register, that is what is read (R198, R200), and the card's own answer counts for nothing; the card's
own part comes first (DESIGN CHOICE, log 16). -/
def cardMmioRead (j : Slot) (ent : Entry) (m : Nat) (s : State) : Res (State × Option Byte) :=
  andThen (cardRegisterRead j ent m (s.note (.mmioRead j m))) fun (s', v) =>
    match s.portAt j ent.card m with
    | some r => andThen (readPort r s') fun (s'', b) => .next (s'', some b)
    | none => .next (s', v)

/-- `mmio_write(m, byte)` of the card in slot `j` (R138): the card's own part, at every offset (R76), then the write of the port
register where the card shows one (R199, R201; the order is log 16's). -/
def cardMmioWrite (j : Slot) (ent : Entry) (m : Nat) (byte : Byte) (s : State) : Res State :=
  andThen (cardRegisterWrite j ent m byte (s.note (.mmioWrite j m byte))) fun s' =>
    match s.portAt j ent.card m with
    | some r => writePort r byte s'
    | none => .next s'

/-- The byte of a byte option: no value reads as 0xFF (R71). -/
def byteOrFF (v : Option Byte) : Byte := v.getD 0xFF

/-- `return b` of a READ that called a card. -/
def dataAfter (r : Res (State × Option Byte)) : Res State :=
  andThen r fun (s, v) => .next (s.respond (.data (byteOrFF v)))

/-! ## READ and WRITE -/

/-- READ with target `Mmio(j, w)` (R130): mirroring by the declared size (R69). -/
def readMmio (addr : Int) (j : Slot) (w : Nat) (s : State) : Res State :=
  match s.slot j with
  | none => .next (s.raise .illegalAccess addr)
  | some ent =>
    if ent.mmioSize = 0 then .next (s.respond (.data 0xFF))
    else dataAfter (cardMmioRead j ent (w % ent.mmioSize) s)

/-- READ with target `Ram(k, off)` (R130, R68). -/
def readRam (addr : Int) (k : Slot) (off : Nat) (s : State) : Res State :=
  match s.slot k with
  | none => .next (s.raise .illegalAccess addr)
  | some ent =>
    if ent.periMemSize ≤ off then .next (s.raise .illegalAccess addr)
    else dataAfter (cardPeek k ent off s)

/-- WRITE with target `Mmio(j, w)` (R131). -/
def writeMmio (addr : Int) (byte : Byte) (j : Slot) (w : Nat) (s : State) : Res State :=
  match s.slot j with
  | none => .next (s.raise .illegalAccess addr)
  | some ent =>
    if ent.mmioSize = 0 then .next (s.respond .ack)
    else ackAfter (cardMmioWrite j ent (w % ent.mmioSize) byte s)

/-- WRITE with target `Ram(k, off)` (R131). -/
def writeRam (addr : Int) (byte : Byte) (k : Slot) (off : Nat) (s : State) : Res State :=
  match s.slot k with
  | none => .next (s.raise .illegalAccess addr)
  | some ent =>
    if ent.periMemSize ≤ off then .next (s.raise .illegalAccess addr)
    else ackAfter (cardPoke k ent off byte s)

/-- READ(addr) (R130). -/
def execRead (addr : Int) (s : State) : Res State :=
  requireRunning s <|
    match decodeAddress s.memsize addr with
    | .user a => .next (s.respond (.data (s.userByte a)))
    | .mmio j w => readMmio addr j w s
    | .ram k off => readRam addr k off s
    | .noMapping => .next (s.raise .illegalAccess addr)

/-- WRITE(addr, byte) (R131). -/
def execWrite (addr : Int) (byte : Byte) (s : State) : Res State :=
  requireRunning s <|
    match decodeAddress s.memsize addr with
    | .user a => .next ((s.writeUser a byte).respond .ack)
    | .mmio j w => writeMmio addr byte j w s
    | .ram k off => writeRam addr byte k off s
    | .noMapping => .next (s.raise .illegalAccess addr)

/-! ## The address patterns (R95)

An ADDR row is the address decode of a word that matches it: the answer is the target, and nothing else changes (log 6). -/

/-- The answer of the address decode. -/
def answerTarget (t : Target) (s : State) : Res State := .next (s.respond (.target t))

/-- A word that matches no row is unmapped (R95, R109 (2)). -/
def answerUnmapped (s : State) : Res State := answerTarget .noMapping s

/-- ADDR.USER. -/
def execAddrUser (a : BitVec 23) (s : State) : Res State := answerTarget (userTarget s.memsize a) s
/-- ADDR.MMIO0. -/
def execAddrMmio0 (a : BitVec 17) (s : State) : Res State := answerTarget (mmioTarget 0 a) s
/-- ADDR.MMIO1. -/
def execAddrMmio1 (a : BitVec 17) (s : State) : Res State := answerTarget (mmioTarget 1 a) s
/-- ADDR.MMIO2. -/
def execAddrMmio2 (a : BitVec 17) (s : State) : Res State := answerTarget (mmioTarget 2 a) s
/-- ADDR.MMIO3. -/
def execAddrMmio3 (a : BitVec 17) (s : State) : Res State := answerTarget (mmioTarget 3 a) s
/-- ADDR.MMIO4. -/
def execAddrMmio4 (a : BitVec 17) (s : State) : Res State := answerTarget (mmioTarget 4 a) s
/-- ADDR.MMIO5. -/
def execAddrMmio5 (a : BitVec 17) (s : State) : Res State := answerTarget (mmioTarget 5 a) s
/-- ADDR.MMIO6. -/
def execAddrMmio6 (a : BitVec 17) (s : State) : Res State := answerTarget (mmioTarget 6 a) s
/-- ADDR.MMIO7. -/
def execAddrMmio7 (a : BitVec 17) (s : State) : Res State := answerTarget (mmioTarget 7 a) s
/-- ADDR.RAM1. -/
def execAddrRam1 (a : BitVec 20) (s : State) : Res State := answerTarget (ramTarget 1 a) s
/-- ADDR.RAM2. -/
def execAddrRam2 (a : BitVec 20) (s : State) : Res State := answerTarget (ramTarget 2 a) s
/-- ADDR.RAM3. -/
def execAddrRam3 (a : BitVec 20) (s : State) : Res State := answerTarget (ramTarget 3 a) s
/-- ADDR.RAM4. -/
def execAddrRam4 (a : BitVec 20) (s : State) : Res State := answerTarget (ramTarget 4 a) s
/-- ADDR.RAM5. -/
def execAddrRam5 (a : BitVec 20) (s : State) : Res State := answerTarget (ramTarget 5 a) s
/-- ADDR.RAM6. -/
def execAddrRam6 (a : BitVec 20) (s : State) : Res State := answerTarget (ramTarget 6 a) s
/-- ADDR.RAM7. -/
def execAddrRam7 (a : BitVec 20) (s : State) : Res State := answerTarget (ramTarget 7 a) s

end Sys2Proof.Machine
end

