-- ==== Sys2Proof/Machine/Commands.lean ====
section
/-! DEFINITION. The commands as operations of their own (format CMD, 30_encoding.md R103, R104; 43_command_protocol.md
R235 to R252): a command is the payload of one WRITEOUT on the endpoint of a command device, and the operation is that
whole transfer (log 7). While the device is accumulating the payload is data (R232). -/

namespace Sys2Proof.Machine

/-- The payload of a command: keyword, argument, tail (R103). -/
def commandPayload (k : Keyword) (arg : Bytes) (tail : Tail) : Bytes := k.bytes ++ arg ++ tail.bytes

/-- The WRITEOUT that carries a command whose rule is `run` (R187, R230). -/
def commandTransfer (run : RunCommand) (e : EndpointId) (payload : Bytes) (s : State) : Res State :=
  requireRunning s (ackAfter (writeoutWith run e payload s))

/-- A payload that is no command: status 128 and nothing else in the device (R253). -/
def execIllegalCommand (e : EndpointId) (payload : Bytes) (s : State) : Res State :=
  commandTransfer (fun _ _ d => illegalCommand d) e payload s

/-- `DEVRST` (R235). -/
def execCmdDevrst (e : EndpointId) (tail : Tail) (s : State) : Res State :=
  commandTransfer (fun _ _ d => devrst d) e (commandPayload .devrst [] tail) s

/-- `DEVSTU` (R236). -/
def execCmdDevstu (e : EndpointId) (tail : Tail) (s : State) : Res State :=
  commandTransfer (fun _ status d => devstu status d) e (commandPayload .devstu [] tail) s

/-- `DEVTYP` (R237). -/
def execCmdDevtyp (e : EndpointId) (tail : Tail) (s : State) : Res State :=
  commandTransfer (fun _ _ d => devtyp d) e (commandPayload .devtyp [] tail) s

/-- `DEVNAM` (R238). -/
def execCmdDevnam (e : EndpointId) (tail : Tail) (s : State) : Res State :=
  commandTransfer (fun _ _ d => devnam d) e (commandPayload .devnam [] tail) s

/-- `OPENR` (R239). -/
def execCmdOpenr (e : EndpointId) (arg : Bytes) (tail : Tail) (s : State) : Res State :=
  commandTransfer (fun text _ d => openr (text.drop 5) d) e (commandPayload .openr arg tail) s

/-- `OPENW` (R240). -/
def execCmdOpenw (e : EndpointId) (arg : Bytes) (tail : Tail) (s : State) : Res State :=
  commandTransfer (fun text _ d => openw (text.drop 5) d) e (commandPayload .openw arg tail) s

/-- `OPENA` (R241). -/
def execCmdOpena (e : EndpointId) (arg : Bytes) (tail : Tail) (s : State) : Res State :=
  commandTransfer (fun text _ d => opena (text.drop 5) d) e (commandPayload .opena arg tail) s

/-- `READ` (R242). -/
def execCmdRead (e : EndpointId) (tail : Tail) (s : State) : Res State :=
  commandTransfer (fun _ _ d => readFile d) e (commandPayload .read [] tail) s

/-- `WRITE<N>` (R243). -/
def execCmdWrite (e : EndpointId) (arg : Bytes) (tail : Tail) (s : State) : Res State :=
  commandTransfer (fun text _ d => writeFile (text.drop 5) d) e (commandPayload .write arg tail) s

/-- `CLOSE` (R246). -/
def execCmdClose (e : EndpointId) (tail : Tail) (s : State) : Res State :=
  commandTransfer (fun _ _ d => closeFile d) e (commandPayload .close [] tail) s

/-- `DELETE` (R247). -/
def execCmdDelete (e : EndpointId) (tail : Tail) (s : State) : Res State :=
  commandTransfer (fun _ _ d => deletePath d) e (commandPayload .delete [] tail) s

/-- `MKDIR` (R248). -/
def execCmdMkdir (e : EndpointId) (tail : Tail) (s : State) : Res State :=
  commandTransfer (fun _ _ d => mkdirPath d) e (commandPayload .mkdir [] tail) s

/-- `MKFILE` (R249). -/
def execCmdMkfile (e : EndpointId) (tail : Tail) (s : State) : Res State :=
  commandTransfer (fun _ _ d => mkfilePath d) e (commandPayload .mkfile [] tail) s

/-- `TOUCH` (R250). -/
def execCmdTouch (e : EndpointId) (tail : Tail) (s : State) : Res State :=
  commandTransfer (fun _ _ d => touchPath d) e (commandPayload .touch [] tail) s

/-- `LISTFILES` (R251). -/
def execCmdListfiles (e : EndpointId) (tail : Tail) (s : State) : Res State :=
  commandTransfer (fun _ _ d => listFiles d) e (commandPayload .listfiles [] tail) s

/-- `GETLEN` (R252). -/
def execCmdGetlen (e : EndpointId) (tail : Tail) (s : State) : Res State :=
  commandTransfer (fun _ _ d => getLen d) e (commandPayload .getlen [] tail) s

end Sys2Proof.Machine
end

