-- ==== Sys2Proof/Machine/Configure.lean ====
section
/-! DEFINITION. The configuration operations of IF-CFG (spec/40_bus_access.md R139 to R144): INSTALL, REMOVE, START,
HALT, RESET. -/

namespace Sys2Proof.Machine

/-- Put an endpoint in the list, identifiers rising; one with the same identifier gives way (log 17). -/
def putEndpoint (e : EndpointId) (x : Endpoint) : List (EndpointId × Endpoint) → List (EndpointId × Endpoint)
  | [] => [(e, x)]
  | (f, y) :: rest =>
    if e < f then (e, x) :: (f, y) :: rest
    else if e = f then (e, x) :: rest
    else (f, y) :: putEndpoint e x rest

/-- The card in a slot leaves the table (R139 to R141): `dispose()` is called once, the slot is empty, and the endpoints
the card owned cease to exist. An empty slot stays as it is. -/
def disposeSlot (k : Slot) (s : State) : Res State :=
  match s.slot k with
  | none => .next s
  | some ent =>
    let s' :=
      { (s.note (.dispose k)).setSlot k none with
        endpoints := s.endpoints.filter (fun p => p.2.owner != some k) }
    match ent.card with
    | .reg _ _ => .next s'
    | .blank => .next s'
    | .vendor id token =>
      if Config.cardDisposeReturns id token then .next s' else .fault (.neverReturns (.card k))

/-- A card as built (log 17). -/
def buildCard (installs : Nat) : Peripheral → Card
  | .regCard => .reg [] []
  | .blank => .blank
  | .vendor id => .vendor id (Config.cardInitial id installs)

/-- The endpoints a card owns are created with it, in their reset state (R140). A stale `recipient` elsewhere that still
names one of their identifiers names the new endpoint from then on, and is followed to it (DESIGN CHOICE, log 25: R141 gives
following it no meaning). -/
def createEndpoints (k : Slot) (card : Peripheral) (s : State) : State :=
  { s with
    endpoints :=
      ((s.params.cardEndpoints.lookup card).getD []).foldl
        (fun eps p => putEndpoint p.1 (p.2.construct (some k)) eps) s.endpoints }

/-- The bounds of INSTALL's operands (R140, U13). -/
def installBounds (k : Nat) (periMemSize mmioSize interruptCount : Int) : Bool :=
  decide (k < 8 ∧ 0 ≤ periMemSize ∧ periMemSize ≤ 1048576 ∧ 0 ≤ mmioSize ∧ mmioSize ≤ 131072 ∧ 0 ≤ interruptCount)

/-- The entry takes its place in the slot (R140). -/
def placeCard (k : Slot) (card : Peripheral) (periMemSize mmioSize interruptCount : Nat) (s : State) : State :=
  { (createEndpoints k card s).setSlot k
      (some { card := buildCard s.installs card, periMemSize, mmioSize, interruptCount }) with
    installs := s.installs + 1 }

/-- INSTALL(k, entry) (R140). -/
def execInstall (k : Nat) (card : Peripheral) (periMemSize mmioSize interruptCount : Int) (s : State) : Res State :=
  requireHalted s <|
    if installBounds k periMemSize mmioSize interruptCount then
      andThen (disposeSlot (Fin.ofNat 8 k) s) fun s' =>
        .next ((placeCard (Fin.ofNat 8 k) card periMemSize.toNat mmioSize.toNat interruptCount.toNat s').respond .ack)
    else .refused .cfgOperand

/-- REMOVE(k) (R141). -/
def execRemove (k : Nat) (s : State) : Res State :=
  requireHalted s <|
    if k < 8 then andThen (disposeSlot (Fin.ofNat 8 k) s) fun s' => .next (s'.respond .ack)
    else .refused .cfgOperand

/-- START (R142). -/
def execStart (s : State) : Res State := .next ({ s with runState := .running }.respond .ack)

/-- HALT (R143). -/
def execHalt (s : State) : Res State := .next ({ s with runState := .halted }.respond .ack)

/-- Every element of state at its value after RESET (R144, R321): `peripheralTable`, `recipient`, the constants and what
is outside the block are kept; user RAM and `romMapping` become unspecified (log 4, 5). RESET touches no card's own state
(R321); that no card or vendor device resets itself either, which R144 leaves to the card, is the model's choice (DESIGN
CHOICE, log 28). -/
def State.afterReset (s : State) : State :=
  { s with
    runState := .halted
    userMemory := []
    romMapping := Config.freeRomMapping (s.resetCount + 1)
    resetCount := s.resetCount + 1
    allocBits := List.replicate (nunits s.memsize) false
    allocMap := []
    endpoints := s.endpoints.map (fun p => (p.1, p.2.reset)) }

/-- RESET (R144). -/
def execReset (s : State) : Res State := .next (s.afterReset.respond .ack)

end Sys2Proof.Machine
end

