-- ==== Sys2Proof/Machine/Dispatch.lean ====
section
/-! DEFINITION. `exec`: one arm for each operation of spec/opcode_table.json. -/

namespace Sys2Proof.Machine

def exec (i : Instr) (s : State) : Host.Outcome State Fault Refusal :=
  match i with
  | .read addr => Sys2Proof.Machine.execRead addr s
  | .write addr byte => Sys2Proof.Machine.execWrite addr byte s
  | .malloc size => Sys2Proof.Machine.execMalloc size s
  | .free offset => Sys2Proof.Machine.execFree offset s
  | .attach e f => Sys2Proof.Machine.execAttach e f s
  | .detach e => Sys2Proof.Machine.execDetach e s
  | .cable e => Sys2Proof.Machine.execCable e s
  | .startSend e => Sys2Proof.Machine.execStartSend e s
  | .startRead e => Sys2Proof.Machine.execStartRead e s
  | .writeout e data => Sys2Proof.Machine.execWriteout e data s
  | .hasNext e => Sys2Proof.Machine.execHasNext e s
  | .recvMessage e => Sys2Proof.Machine.execRecvMessage e s
  | .install k card periMemSize mmioSize interruptCount => Sys2Proof.Machine.execInstall k card periMemSize mmioSize interruptCount s
  | .remove k => Sys2Proof.Machine.execRemove k s
  | .start => Sys2Proof.Machine.execStart s
  | .halt => Sys2Proof.Machine.execHalt s
  | .reset => Sys2Proof.Machine.execReset s
  | .addrUser a => Sys2Proof.Machine.execAddrUser a s
  | .addrMmio0 a => Sys2Proof.Machine.execAddrMmio0 a s
  | .addrMmio1 a => Sys2Proof.Machine.execAddrMmio1 a s
  | .addrMmio2 a => Sys2Proof.Machine.execAddrMmio2 a s
  | .addrMmio3 a => Sys2Proof.Machine.execAddrMmio3 a s
  | .addrMmio4 a => Sys2Proof.Machine.execAddrMmio4 a s
  | .addrMmio5 a => Sys2Proof.Machine.execAddrMmio5 a s
  | .addrMmio6 a => Sys2Proof.Machine.execAddrMmio6 a s
  | .addrMmio7 a => Sys2Proof.Machine.execAddrMmio7 a s
  | .addrRam1 a => Sys2Proof.Machine.execAddrRam1 a s
  | .addrRam2 a => Sys2Proof.Machine.execAddrRam2 a s
  | .addrRam3 a => Sys2Proof.Machine.execAddrRam3 a s
  | .addrRam4 a => Sys2Proof.Machine.execAddrRam4 a s
  | .addrRam5 a => Sys2Proof.Machine.execAddrRam5 a s
  | .addrRam6 a => Sys2Proof.Machine.execAddrRam6 a s
  | .addrRam7 a => Sys2Proof.Machine.execAddrRam7 a s
  | .cmdDevrst e tail => Sys2Proof.Machine.execCmdDevrst e tail s
  | .cmdDevstu e tail => Sys2Proof.Machine.execCmdDevstu e tail s
  | .cmdDevtyp e tail => Sys2Proof.Machine.execCmdDevtyp e tail s
  | .cmdDevnam e tail => Sys2Proof.Machine.execCmdDevnam e tail s
  | .cmdOpenr e arg tail => Sys2Proof.Machine.execCmdOpenr e arg tail s
  | .cmdOpenw e arg tail => Sys2Proof.Machine.execCmdOpenw e arg tail s
  | .cmdOpena e arg tail => Sys2Proof.Machine.execCmdOpena e arg tail s
  | .cmdRead e tail => Sys2Proof.Machine.execCmdRead e tail s
  | .cmdWrite e arg tail => Sys2Proof.Machine.execCmdWrite e arg tail s
  | .cmdClose e tail => Sys2Proof.Machine.execCmdClose e tail s
  | .cmdDelete e tail => Sys2Proof.Machine.execCmdDelete e tail s
  | .cmdMkdir e tail => Sys2Proof.Machine.execCmdMkdir e tail s
  | .cmdMkfile e tail => Sys2Proof.Machine.execCmdMkfile e tail s
  | .cmdTouch e tail => Sys2Proof.Machine.execCmdTouch e tail s
  | .cmdListfiles e tail => Sys2Proof.Machine.execCmdListfiles e tail s
  | .cmdGetlen e tail => Sys2Proof.Machine.execCmdGetlen e tail s

end Sys2Proof.Machine
end

