-- ==== Sys2Proof/Machine/Present.lean ====
section
/-! DEFINITION. How the next request reaches the block (log 1): the head of the queue is decoded and executed; a request
that selects no operation is treated as 30_encoding.md R109 says. Background agents may write before it (R80). -/

namespace Sys2Proof.Machine

/-- A request that the decoder rejects (R109): a command text that is no command sets status 128, an address word that
matches no row is unmapped, and anything else is no request of the interface. -/
def rejectRequest (r : Request) (why : DecodeError) (s : State) : Res State :=
  match r, why with
  | .cmd e payload, .illegalCommand => execIllegalCommand e payload s
  | .addr _, .unmappedWord _ => answerUnmapped s
  | _, _ => .refused (.noSuchOperation why)

/-- One request (R90, R91). -/
def present (r : Request) (s : State) : Res State :=
  match decode r with
  | .ok i => exec i s
  | .error why => rejectRequest r why s

/-- The fixture input of R202: `txQueue[h] <- bytes`. -/
def loadTx (h : EndpointId) (bytes : Bytes) (s : State) : Res State :=
  withEndpoint s h fun x =>
    match x.device with
    | .reference _ rx => .next (s.putDevice h (.reference bytes rx))
    | .command _ => .refused (.notReference h)
    | .vendor _ _ => .refused (.notReference h)

/-- One input. -/
def acceptInput (input : Input) (s : State) : Res State :=
  match input with
  | .request r => present r s
  | .loadTx h bytes => loadTx h bytes s

/-- What the next step does: background agents write, as they may between any two steps of the initiator (R80, log 9); then
the next input is taken, if there is one. -/
def advance (s : State) : Res State :=
  match s.pending with
  | [] => .next s.interleave
  | input :: rest => acceptInput input { s.interleave with pending := rest, periCalls := [] }

/-- The run state in which an operation is presented (R26, R306): ATTACH, DETACH, START, HALT, RESET and the address
decode leave it as it is. -/
def admittedIn (i : Instr) (now : RunState) : RunState :=
  match i with
  | .read _ | .write _ _ | .malloc _ | .free _ => .running
  | .cable _ | .startSend _ | .startRead _ | .writeout _ _ | .hasNext _ | .recvMessage _ => .running
  | .attach _ _ | .detach _ => now
  | .install _ _ _ _ _ | .remove _ => .halted
  | .start | .halt | .reset => now
  | .addrUser _ | .addrMmio0 _ | .addrMmio1 _ | .addrMmio2 _ | .addrMmio3 _ | .addrMmio4 _ | .addrMmio5 _ => now
  | .addrMmio6 _ | .addrMmio7 _ | .addrRam1 _ | .addrRam2 _ | .addrRam3 _ | .addrRam4 _ | .addrRam5 _ => now
  | .addrRam6 _ | .addrRam7 _ => now
  | .cmdDevrst _ _ | .cmdDevstu _ _ | .cmdDevtyp _ _ | .cmdDevnam _ _ | .cmdOpenr _ _ _ | .cmdOpenw _ _ _ => .running
  | .cmdOpena _ _ _ | .cmdRead _ _ | .cmdWrite _ _ _ | .cmdClose _ _ | .cmdDelete _ _ | .cmdMkdir _ _ => .running
  | .cmdMkfile _ _ | .cmdTouch _ _ | .cmdListfiles _ _ | .cmdGetlen _ _ => .running

/-- The run state in which a request is presented. -/
def requestRunState (r : Request) (now : RunState) : RunState :=
  match decode r with
  | .ok i => admittedIn i now
  | .error _ => now

end Sys2Proof.Machine
end

