-- ==== Sys2Proof/Machine/Step.lean ====
section
/-! DEFINITION. `step`, and the placing of a word of the opcode table where `step` takes its next request (log 1). -/

namespace Sys2Proof.Machine

/-- One step. -/
def step (s : State) : Host.Outcome State Fault Refusal := advance s

/-- The state in which the next step runs the operation of a word of the opcode table: the request stands at the head of
the queue and the run state is the one in which the operation is presented (log 1). -/
def State.withFetchWord (s : State) (nbits w : Nat) : State :=
  { s with
    pending := .request (requestOfTableWord nbits w) :: s.pending
    runState := requestRunState (requestOfTableWord nbits w) s.runState }

end Sys2Proof.Machine
end

