-- ==== Sys2Proof/Safety.lean ====
section
/-! DEFINITION. What counts as a good state and as a completed operation, in the terms the statements use: the invariants
of the spec (10_state.md R22, R24, R27 to R34, R41, R42; 42_link_engine.md R203 (3)) and the words for what an operation
leaves unchanged. -/

namespace Sys2Proof.Machine

/-! ## Invariants -/

/-- User RAM keeps its canonical form and stays inside `0 .. memsize-1` (R22, R23). -/
def MemoryInv (s : State) : Prop :=
  Memory.wf s.userMemory ∧ ∀ c ∈ s.userMemory, c.1 < s.memsize

/-- The allocator invariant of R29: one bit a unit, every recorded allocation inside the bitset with its bits set, no two
of them overlapping, every set bit inside one of them. -/
def AllocInv (s : State) : Prop :=
  s.allocBits.length = nunits s.memsize ∧
  (∀ p ∈ s.allocMap, 1 ≤ p.2 ∧ p.1 + p.2 ≤ nunits s.memsize ∧
    ∀ i, p.1 ≤ i → i < p.1 + p.2 → s.allocBits[i]? = some true) ∧
  s.allocMap.Pairwise (fun p q => p.1 + p.2 ≤ q.1 ∨ q.1 + q.2 ≤ p.1) ∧
  (∀ i, s.allocBits[i]? = some true → ∃ p ∈ s.allocMap, p.1 ≤ i ∧ i < p.1 + p.2)

/-- The declared sizes of every card lie inside its windows (R8, R140). -/
def TableInv (s : State) : Prop :=
  ∀ (k : Slot) (ent : Entry), s.slot k = some ent → ent.periMemSize ≤ Config.reserve ∧ ent.mmioSize ≤ Config.mmioWin

/-- A session's counters: `writeBufferUsage = |writeBuffer| ≤ writeTarget` (R41), bytes still to come exactly while
accumulating, an open handle with a path while accumulating, and `sendPos ≤ |sendBuffer|` (R42). -/
def Session.Inv (x : Session) : Prop :=
  x.writeBufferUsage = x.writeBuffer.length ∧ x.writeBufferUsage ≤ x.writeTarget ∧
  (x.accumulating = true → x.writeBufferUsage < x.writeTarget) ∧
  (x.accumulating = false → x.writeBuffer = []) ∧
  (x.fileOpen = true → x.curPath ≠ none) ∧
  x.sendPos ≤ x.sendBuffer.length

/-- A session invariant of the device behind an endpoint; other devices have none. -/
def Device.Inv : Device → Prop
  | .command d => d.session.Inv
  | .reference _ _ => True
  | .vendor _ _ => True

/-- Every command session keeps its counters (R41, R42). -/
def SessionInv (s : State) : Prop := ∀ p ∈ s.endpoints, p.2.device.Inv

/-- An endpoint at rest (R32, R34): IDLE unless a background agent may have written its flags, and a count of at most
4096. -/
def Endpoint.AtRest (x : Endpoint) : Prop :=
  (x.bgAgent = false → x.ready = true ∧ x.busy = false) ∧ x.blockSize.len ≤ Config.block

/-- Every endpoint is at rest between two operations (R32, R34, R203 (3)). -/
def LinkInv (s : State) : Prop := ∀ p ∈ s.endpoints, p.2.AtRest

/-- No endpoint is its own peer (R182, R31). -/
def CableInv (s : State) : Prop := ∀ p ∈ s.endpoints, p.2.recipient ≠ some p.1

/-! ## What an operation leaves unchanged -/

/-- What background agents may have made of an endpoint (R80): only the four shared fields differ, nothing does without an
agent, behind a reference endpoint or a command device there is none (R43, R202), and a written count is of the right
type. -/
def AgentsMade (x y : Endpoint) : Prop :=
  y = { x with ready := y.ready, busy := y.busy, statusCode := y.statusCode, blockSize := y.blockSize } ∧
  (x.runsAgent = false → y = x) ∧
  (x.blockSize.len ≤ Config.block → y.blockSize.len ≤ Config.block)

/-- Every endpoint outside `changed` is as before, but for what its background agent may have written. -/
def EndpointsKept (s t : State) (changed : List EndpointId) : Prop :=
  ∀ f, f ∉ changed →
    (s.endpoint? f = none → t.endpoint? f = none) ∧
    ∀ x, s.endpoint? f = some x → ∃ y, t.endpoint? f = some y ∧ AgentsMade x y

/-- Every byte of user RAM reads as before. -/
def SameMemory (s t : State) : Prop := ∀ a : Nat, t.userByte a = s.userByte a

/-- A transfer's frame: user RAM reads as before, and nothing but endpoints, clock, wire, the agents' script and the
response has changed: no card, no allocator bit, no run state, no parameter. That no card's own state changes either is the
model's choice (log 28, log 29). -/
def LinkFrame (s t : State) : Prop :=
  SameMemory s t ∧
  t = { s with
    endpoints := t.endpoints, now := t.now, wire := t.wire, agentScript := t.agentScript, clockReads := t.clockReads,
    slept := t.slept, response := t.response }

/-- Which card a card is: its kind, and a vendor card's id. Its own state is no part of it. -/
def Card.kind : Card → Peripheral
  | .reg _ _ => .regCard
  | .blank => .blank
  | .vendor id _ => .vendor id

/-- Which card an entry holds, and its three declared numbers (R24). -/
def Entry.declared (ent : Entry) : Peripheral × Nat × Nat × Nat :=
  (ent.card.kind, ent.periMemSize, ent.mmioSize, ent.interruptCount)

/-- The same slots are occupied, by the same cards with the same declared numbers. -/
def SameTable (s t : State) : Prop := ∀ k : Slot, (t.slot k).map Entry.declared = (s.slot k).map Entry.declared

/-- A step from `s` runs no operation of the table: nothing is asked (log 1), a test loads a queue (log 20), or the request at
the head selects no operation (R109). -/
def RunsNoOperation (s : State) : Prop :=
  s.pending = [] ∨ (∃ h bytes rest, s.pending = .loadTx h bytes :: rest) ∨
  ∃ r rest why, s.pending = .request r :: rest ∧ decode r = .error why

/-- The machine is running and `e` is an endpoint without a background agent, with the record `x`. -/
def Live (s : State) (e : EndpointId) (x : Endpoint) : Prop :=
  s.runState = .running ∧ s.endpoint? e = some x ∧ x.bgAgent = false

/-! ## Devices -/

/-- What the receive hook of an endpoint makes of a payload: the device after it, and the status it writes (R181 (b),
R202, R232); none for a hook that never returns. -/
def Endpoint.consume (x : Endpoint) (payload : Bytes) : Option (Device × Option Int) :=
  match x.device with
  | .reference tx rx => some (.reference tx (rx ++ payload), none)
  | .command d => some (.command (consumeCommand payload x.statusCode d).1, (consumeCommand payload x.statusCode d).2)
  | .vendor id token => (Config.hookConsume id token payload).map (fun r => (.vendor id r.1, r.2))

/-- What a device has still to send: the queue of a reference endpoint (R202), the staged bytes of a command device from
`sendPos` on (R42). -/
def Device.queued : Device → Option Bytes
  | .reference tx _ => some tx
  | .command d => some (d.session.sendBuffer.drop d.session.sendPos)
  | .vendor _ _ => none

/-- A device with a known queue after it has sent `n` bytes of it (R202, R254). -/
def Device.afterSending (n : Nat) : Device → Device
  | .reference tx rx => .reference (tx.drop n) rx
  | .command d => .command { d with session := { d.session with sendPos := d.session.sendPos + n } }
  | .vendor id token => .vendor id token

/-- A running machine with a command device behind endpoint `e` that is not accumulating data. -/
def AwaitsCommand (s : State) (e : EndpointId) (x : Endpoint) (d : CommandDevice) : Prop :=
  Live s e x ∧ x.device = .command d ∧ d.session.accumulating = false

/-- What a WRITEOUT of `n` bytes into a command device leaves (R187, R230): the response is `Ack`; endpoint `e` is idle
with the device `d`, the status `c` and the count `n`, its delay accumulator being R196's; the rest is as before. -/
def DeviceLeft (s : State) (e : EndpointId) (x : Endpoint) (n : Nat) (d : CommandDevice) (c : Int) (t : State) : Prop :=
  t.response = .ack ∧ LinkFrame s t ∧ EndpointsKept s t [e] ∧
  ∃ acc,
    t.endpoint? e = some
      { x with
        busy := false, ready := true, statusCode := c, blockSize := ⟨n, x.blockSize.cont⟩, delayAcc := acc,
        device := .command d }

/-- The operation `i` on the command device behind `e` completes and leaves the device `d` with the status `c`. -/
def Leaves (i : Instr) (s : State) (e : EndpointId) (x : Endpoint) (n : Nat) (d : CommandDevice) (c : Int) : Prop :=
  ∃ t, exec i s = .next t ∧ DeviceLeft s e x n d c t

/-- A device with a path in `curPath` and its session otherwise as it was. -/
def CommandDevice.withPath (d : CommandDevice) (p : Path) (drive : Option Nat) : CommandDevice :=
  { d with session := { d.session with curPath := some p, drive := drive } }

/-! ## Delays -/

/-- How long START_SEND has taken when its own delay step runs (R196): the clock's advances since its entry (free values,
log 10) and the nanoseconds its receiver slept. -/
def senderElapsed (reads sleep : Nat) : Nat :=
  Config.clockAdvance (reads + 1) + Config.clockAdvance (reads + 2) + sleep + Config.clockAdvance (reads + 3)

/-! ## Paths -/

/-- Segments as a path writes them: each one, `sep` between two. -/
def joinSegments (sep : Byte) : Path → Bytes
  | [] => []
  | [seg] => seg
  | seg :: rest => seg ++ sep :: joinSegments sep rest

/-- A segment that names something: not empty, neither `.` nor `..`, without a separator or a forbidden byte (R234). -/
def RealSegment (forbidden seg : Bytes) : Prop :=
  seg ≠ [] ∧ seg ≠ [0x2E] ∧ seg ≠ [0x2E, 0x2E] ∧ 0x2F ∉ seg ∧ 0x5C ∉ seg ∧ ∀ b ∈ seg, b ∉ forbidden

/-! ## Addresses and ports -/

/-- The four causes of an `IllegalAccessFault` (R291), in machine addresses (R62, R64): unmapped, an MMIO window of an
empty slot, a RAM window of an empty slot, a RAM-window offset at or beyond the declared size. -/
def Unreachable (s : State) (addr : Int) : Prop :=
  (s.memsize : Int) ≤ addr ∨ addr ≤ -8388609 ∨
  (∃ j : Slot, -(131072 * (j.val + 1) : Int) ≤ addr ∧ addr ≤ -(131072 * j.val + 1 : Int) ∧ s.slot j = none) ∨
  (∃ k : Slot, k ≠ 0 ∧ -(1048576 * (k.val + 1) : Int) ≤ addr ∧ addr ≤ -(1048576 * k.val + 1 : Int) ∧
    (s.slot k = none ∨
      ∃ ent, s.slot k = some ent ∧ (ent.periMemSize : Int) ≤ -addr - 1 - 1048576 * k.val))

/-- The machine address of offset `w` of MMIO window `j` (R64). -/
def mmioAddress (j : Slot) (w : Nat) : Int := -(131072 * j.val + w + 1 : Int)

/-- The machine address of offset `off` of the RAM window of slot `k` (R63, R65). -/
def ramAddress (k : Slot) (off : Nat) : Int := -(1048576 * k.val + off + 1 : Int)

/-- The card in PORT_SLOT shows the register `r` of a serial port at offset `w` of its MMIO window (R69, R304). -/
def ShowsPort (s : State) (w : Nat) (r : PortRegister) : Prop :=
  w < 131072 ∧
  ∃ ent, s.slot s.params.portSlot = some ent ∧ ent.card.hostsPorts = true ∧ 0 < ent.mmioSize ∧
    portRegister s.params.ports (w % ent.mmioSize) = some r

/-- The card `c` in slot `j` shows no register of a serial port at offset `m` of its MMIO window (R304). -/
def NoPortAt (s : State) (j : Slot) (c : Card) (m : Nat) : Prop :=
  j ≠ s.params.portSlot ∨ c.hostsPorts = false ∨ portRegister s.params.ports m = none

/-- The call that an MMIO access makes on the card in PORT_SLOT: its offset is mirrored (R69). -/
def portOffset (s : State) (w : Nat) : Nat := w % ((s.slot s.params.portSlot).map Entry.mmioSize).getD 0

/-- The peripheral table when the card in PORT_SLOT has taken a call that makes `next id token` of the token of a vendor card:
no other card changes, and there is none for a call that never returns (R76, R300). -/
def tableAfterCall (s : State) (next : Nat → Nat → Option Nat) : Option (Vector (Option Entry) 8) :=
  match s.slot s.params.portSlot with
  | none => some s.peripheralTable
  | some ent =>
    match ent.card with
    | .reg _ _ => some s.peripheralTable
    | .blank => some s.peripheralTable
    | .vendor id token =>
      (next id token).map fun token' =>
        s.peripheralTable.set s.params.portSlot.val (some { ent with card := .vendor id token' })

/-- The table after `mmio_read` at offset `w` of the window of PORT_SLOT. -/
def tableAfterRead (s : State) (w : Nat) : Option (Vector (Option Entry) 8) :=
  tableAfterCall s fun id token => (Config.cardMmioRead id token (portOffset s w)).map Prod.snd

/-- The table after `mmio_write` of `v` at offset `w` of the window of PORT_SLOT. -/
def tableAfterWrite (s : State) (w : Nat) (v : Byte) : Option (Vector (Option Entry) 8) :=
  tableAfterCall s fun id token => Config.cardMmioWrite id token (portOffset s w) v

/-- Every `mmio_write` of the card in PORT_SLOT returns, whatever its own state. -/
def PortCardReturns (s : State) : Prop :=
  ∀ ent id token, s.slot s.params.portSlot = some ent → ent.card = .vendor id token →
    ∀ token' m v, (Config.cardMmioWrite id token' m v).isSome

/-- A WRITE of `v` at offset `w` of the window of PORT_SLOT, where a register of the block-size pair is shown, leaves endpoint
`e` with the record `y` and changes nothing else but the card's own state; it never returns where the card's call does not. -/
def LoadsPair (s : State) (w : Nat) (v : Byte) (e : EndpointId) (y : Endpoint) : Prop :=
  match tableAfterWrite s w v with
  | none => exec (.write (mmioAddress s.params.portSlot w) v) s = .fault (.neverReturns (.card s.params.portSlot))
  | some table =>
    ∃ t, exec (.write (mmioAddress s.params.portSlot w) v) s = .next t ∧ t.endpoint? e = some y ∧
      EndpointsKept s t [e] ∧ SameMemory s t ∧
      t = { s with
        peripheralTable := table, endpoints := t.endpoints, agentScript := t.agentScript, response := .ack,
        periCalls := .mmioWrite s.params.portSlot (portOffset s w) v :: s.periCalls }

/-! ## Runs -/

/-- The states a machine comes to: built, with any requests and any background agents' writes to come, then run. -/
inductive Reachable : State → Prop
  | built (b : Build) (inputs : List Input) (script : List (List (EndpointId × AgentWrite))) :
    Reachable { State.construct b with pending := inputs, agentScript := script }
  | stepped {s t : State} : Reachable s → step s = .next t → Reachable t

end Sys2Proof.Machine
end

