-- ==== Sys2Proof/Certificates/Slice0/Obligations.lean ====
section
/-! DEFINITION. The statements for the provers. Each docstring names the rules of spec/ it rests on; where a clause is the
model's choice it names the entry of the assumption log. -/

open Sys2Proof Sys2Proof.Machine

/-! ## Encoding -/

/-- Decode and encode agree: every well-formed operation, with every operand, is decoded from its own request (R91, R93,
R95, R96, R97, R103 to R106): the selectors, address words and command texts in the spec's bits, the other operands as the
values the spec names, which have no bits (R90, log 2). -/
def Obligations.DecodeEncode : Prop := ∀ i : Instr, i.WellFormed → decode (encode i) = .ok i

/-- No request is read as an operation that another request stands for: what decodes encodes back to itself. A command
request is one payload of at most 4096 bytes (R98). That a request whose operands are not its selector's decodes to nothing
is the model's choice (log 19), and so is the form of the operands that have no bits in the spec (log 2). -/
def Obligations.EncodeDecode : Prop :=
  ∀ (r : Request) (i : Instr), decode r = .ok i →
    (∀ e payload, r = .cmd e payload → payload.length ≤ 4096) → encode i = r

/-- A few words of the encoding tables decode to what they stand for: selectors of R91 with their operands, address words of
R93 and R95, command texts of R104 and R105, a selector of no operation (R109). The form of the operands that have no bits in
the spec is the model's (log 2). -/
def Obligations.DecodedWords : Prop :=
  decode (.bus 0x00 0x00000064 none) = .ok (.read 100) ∧
  decode (.bus 0x01 0xFFEFFFFF (some 0x2A)) = .ok (.write (-1048577) 0x2A) ∧
  decode (.alloc 0x10 65) = .ok (.malloc 65) ∧
  decode (.link 0x20 1 (.peer 256)) = .ok (.attach 1 256) ∧
  decode (.cfg 0x32 .none) = .ok .start ∧
  decode (.addr 0xFFFEFFFE) = .ok (.addrMmio0 0x0FFFE) ∧
  decode (.addr 0xFFE00000) = .ok (.addrRam1 0x00000) ∧
  decode (.cmd 0 [0x44, 0x45, 0x56, 0x52, 0x53, 0x54, 0x17]) = .ok (.cmdDevrst 0 (.eob [])) ∧
  decode (.cmd 0 [0x4F, 0x50, 0x45, 0x4E, 0x52, 0x22, 0x61, 0x22]) = .ok (.cmdOpenr 0 [0x22, 0x61, 0x22] .absent) ∧
  decode (.cfg 0x35 .none) = .error (.unknownSelector 0x35)

/-- The windows of the address space (R62): user RAM, the MMIO windows and the RAM windows with their offsets, and nothing
else; every integer is under one clause (R66). -/
def Obligations.AddressWindows : Prop :=
  ∀ memsize : Nat, memsize ≤ 8388608 →
    (∀ a : Nat, a < memsize → decodeAddress memsize a = .user a) ∧
    (∀ (j : Slot) (w : Nat), w < 131072 → decodeAddress memsize (-(131072 * j.val + w + 1 : Int)) = .mmio j w) ∧
    (∀ (k : Slot) (off : Nat), k ≠ 0 → off < 1048576 →
      decodeAddress memsize (-(1048576 * k.val + off + 1 : Int)) = .ram k off) ∧
    (∀ addr : Int, (memsize : Int) ≤ addr ∨ addr ≤ -8388609 → decodeAddress memsize addr = .noMapping)

/-- The rows of the address patterns give the targets of the decode function: every 32-bit word presented answers with the
target of its sign-extended address, a word that matches no row included (R95, R93, R66). That the answer is returned as a
response is the model's choice (log 6). -/
def Obligations.AddressRowsAgree : Prop :=
  ∀ (A : BitVec 32) (s : State),
    present (.addr A) s = .next { s with response := .target (decodeAddress s.memsize A.toInt) }

/-- Each ADDR row completes in every state with its target, `w = ~A[16:0]` or `off = ~A[19:0]` (R95), and changes nothing but
the response (log 6). -/
def Obligations.AddressRowsComplete : Prop :=
  ∀ s : State,
    (∀ a : BitVec 23,
      exec (.addrUser a) s
        = .next { s with response := .target (if a.toNat < s.memsize then .user a.toNat else .noMapping) }) ∧
    (∀ a : BitVec 17,
      exec (.addrMmio0 a) s = .next { s with response := .target (.mmio 0 (131071 - a.toNat)) } ∧
      exec (.addrMmio1 a) s = .next { s with response := .target (.mmio 1 (131071 - a.toNat)) } ∧
      exec (.addrMmio2 a) s = .next { s with response := .target (.mmio 2 (131071 - a.toNat)) } ∧
      exec (.addrMmio3 a) s = .next { s with response := .target (.mmio 3 (131071 - a.toNat)) } ∧
      exec (.addrMmio4 a) s = .next { s with response := .target (.mmio 4 (131071 - a.toNat)) } ∧
      exec (.addrMmio5 a) s = .next { s with response := .target (.mmio 5 (131071 - a.toNat)) } ∧
      exec (.addrMmio6 a) s = .next { s with response := .target (.mmio 6 (131071 - a.toNat)) } ∧
      exec (.addrMmio7 a) s = .next { s with response := .target (.mmio 7 (131071 - a.toNat)) }) ∧
    (∀ a : BitVec 20,
      exec (.addrRam1 a) s = .next { s with response := .target (.ram 1 (1048575 - a.toNat)) } ∧
      exec (.addrRam2 a) s = .next { s with response := .target (.ram 2 (1048575 - a.toNat)) } ∧
      exec (.addrRam3 a) s = .next { s with response := .target (.ram 3 (1048575 - a.toNat)) } ∧
      exec (.addrRam4 a) s = .next { s with response := .target (.ram 4 (1048575 - a.toNat)) } ∧
      exec (.addrRam5 a) s = .next { s with response := .target (.ram 5 (1048575 - a.toNat)) } ∧
      exec (.addrRam6 a) s = .next { s with response := .target (.ram 6 (1048575 - a.toNat)) } ∧
      exec (.addrRam7 a) s = .next { s with response := .target (.ram 7 (1048575 - a.toNat)) })

/-! ## The step -/

/-- A step runs the decoded operation: background agents write, the request at the head of the queue is taken off it, the
calls noted for the last operation are forgotten, and `exec` runs (R90, R91, log 1, log 23). The agents' writes are the next
batch of their script (log 9), as R80 has it between any two steps of the initiator: they take that batch off the script,
change nothing but the shared fields of endpoints with an agent, and make each write of the batch in turn; with no batch to
come the operation runs on the state as it stands. -/
def Obligations.StepRunsDecoded : Prop :=
  (∀ (s : State) (r : Request) (rest : List Input) (i : Instr),
    s.pending = .request r :: rest → decode r = .ok i →
      step s = exec i { s.interleave with pending := rest, periCalls := [] } ∧
      (s.agentScript = [] → step s = exec i { s with pending := rest, periCalls := [] })) ∧
  (∀ s : State,
    EndpointsKept s s.interleave [] ∧
    s.interleave = { s with endpoints := s.interleave.endpoints, agentScript := s.agentScript.tail }) ∧
  (∀ (s : State) (e : EndpointId) (x : Endpoint) (batch : List (EndpointId × AgentWrite))
    (rest : List (List (EndpointId × AgentWrite))),
    s.agentScript = batch :: rest → s.endpoint? e = some x →
      s.interleave.endpoint? e =
        some (if x.runsAgent then ((batch.filter (fun p => p.1 = e)).map Prod.snd).foldl (fun y w => w.apply y) x else x))

/-! ## The dispatcher -/

/-- READ and WRITE of user RAM complete: READ answers the byte and changes nothing; WRITE changes that byte and no other
element of the state (R130, R131, R133 (2)). -/
def Obligations.UserRamAccess : Prop :=
  ∀ (s : State) (a : Nat) (v : Byte), s.runState = .running → a < s.memsize →
    exec (.read a) s = .next { s with response := .data (s.userByte a) } ∧
    ∃ t, exec (.write a v) s = .next t ∧
      (∀ b, t.userByte b = if b = a then v else s.userByte b) ∧
      t = { s with userMemory := t.userMemory, response := .ack }

/-- `write(a,b); read(a) == b` (R78): the WRITE completes, and the very next READ answers its byte. -/
def Obligations.WriteThenRead : Prop :=
  ∀ (s : State) (a : Nat) (v : Byte), s.runState = .running → a < s.memsize →
    ∃ t, exec (.write a v) s = .next t ∧ exec (.read a) t = .next { t with response := .data v }

/-- An `IllegalAccessFault` is raised by READ and WRITE in exactly the four cases (R291), with the address as presented, and
changes nothing but the response; in every other case an answering READ answers a byte, and an answering WRITE `Ack`. -/
def Obligations.IllegalAccess : Prop :=
  ∀ (s : State) (addr : Int) (v : Byte), s.runState = .running →
    (Unreachable s addr →
      exec (.read addr) s = .next { s with response := .fault .illegalAccess addr s.params.machineId } ∧
      exec (.write addr v) s = .next { s with response := .fault .illegalAccess addr s.params.machineId }) ∧
    (¬Unreachable s addr →
      (∀ t, exec (.read addr) s = .next t → ∃ b, t.response = .data b) ∧
      (∀ t, exec (.write addr v) s = .next t → t.response = .ack))

/-- Mirroring (R69): the card is called with the offset modulo its declared size, so that two addresses of one window
whose offsets agree modulo that size do the same, and what answers is no fault; with a declared size of 0 a READ answers
0xFF and a WRITE is dropped, without a call. -/
def Obligations.Mirroring : Prop :=
  ∀ (s : State) (j : Slot) (ent : Entry) (w w' : Nat) (v : Byte),
    s.runState = .running → s.slot j = some ent → w < 131072 → w' < 131072 →
      (ent.mmioSize = 0 →
        exec (.read (mmioAddress j w)) s = .next { s with response := .data 0xFF } ∧
        exec (.write (mmioAddress j w) v) s = .next { s with response := .ack }) ∧
      (0 < ent.mmioSize →
        (∀ t, exec (.read (mmioAddress j w)) s = .next t →
          (∃ b, t.response = .data b) ∧ t.periCalls = .mmioRead j (w % ent.mmioSize) :: s.periCalls) ∧
        (∀ t, exec (.write (mmioAddress j w) v) s = .next t →
          t.response = .ack ∧ t.periCalls = .mmioWrite j (w % ent.mmioSize) v :: s.periCalls) ∧
        (w % ent.mmioSize = w' % ent.mmioSize →
          exec (.read (mmioAddress j w)) s = exec (.read (mmioAddress j w')) s ∧
          exec (.write (mmioAddress j w) v) s = exec (.write (mmioAddress j w') v) s))

/-- Accesses inside a declared RAM window complete with one `peek` or `poke` at the window's offset (R65, R68, R71): the
fixture REGCARD keeps its bytes, the blank card gives no value, which reads as 0xFF, and a vendor card whose call returns
changes its own state only; one whose call does not return leaves no next state (R300). What a card does with the call is
the fixture's or a parameter (log 12, log 16); that the devices of the card's endpoints have no part in its own state is the
model's choice (log 29). -/
def Obligations.CardMemory : Prop :=
  ∀ (s : State) (k : Slot) (ent : Entry) (off : Nat) (v : Byte),
    s.runState = .running → k ≠ 0 → s.slot k = some ent → off < ent.periMemSize → off < 1048576 →
      (∀ ram regs, ent.card = .reg ram regs →
        exec (.read (ramAddress k off)) s
          = .next { s with response := .data ((Memory.read ram off).getD 0), periCalls := .peek k off :: s.periCalls } ∧
        ∃ t ram', exec (.write (ramAddress k off) v) s = .next t ∧
          t.slot k = some { ent with card := .reg ram' regs } ∧
          (∀ b, Memory.read ram' b = if b = off then some v else Memory.read ram b) ∧
          (∀ j, j ≠ k → t.slot j = s.slot j) ∧ SameMemory s t ∧
          t = { s with
            peripheralTable := t.peripheralTable, response := .ack, periCalls := .poke k off v :: s.periCalls }) ∧
      (ent.card = .blank →
        exec (.read (ramAddress k off)) s
          = .next { s with response := .data 0xFF, periCalls := .peek k off :: s.periCalls } ∧
        exec (.write (ramAddress k off) v) s
          = .next { s with response := .ack, periCalls := .poke k off v :: s.periCalls }) ∧
      (∀ id token, ent.card = .vendor id token →
        exec (.read (ramAddress k off)) s
          = (match Config.cardPeek id token off with
            | some (o, token') =>
              .next { s with
                peripheralTable := s.peripheralTable.set k.val (some { ent with card := .vendor id token' })
                response := .data (o.getD 0xFF)
                periCalls := .peek k off :: s.periCalls }
            | none => .fault (.neverReturns (.card k))) ∧
        exec (.write (ramAddress k off) v) s
          = (match Config.cardPoke id token off v with
            | some token' =>
              .next { s with
                peripheralTable := s.peripheralTable.set k.val (some { ent with card := .vendor id token' })
                response := .ack
                periCalls := .poke k off v :: s.periCalls }
            | none => .fault (.neverReturns (.card k))))

/-- Accesses in the MMIO window of a card, at an offset where it shows no register of a serial port, complete at the mirrored
offset (R69, R71, R137, R138): the fixture REGCARD keeps its registers, the blank card gives no value, which reads as 0xFF,
and a vendor card whose call returns changes its own state only; one whose call does not return leaves no next state (R300).
A REGCARD shows no port register anywhere. What a card does with the call is the fixture's or a parameter (log 12, log 16);
that the devices of the card's endpoints have no part in its own state is the model's choice (log 29). -/
def Obligations.CardRegisters : Prop :=
  ∀ (s : State) (j : Slot) (ent : Entry) (w : Nat) (v : Byte),
    s.runState = .running → s.slot j = some ent → 0 < ent.mmioSize → w < 131072 →
    NoPortAt s j ent.card (w % ent.mmioSize) →
      let m := w % ent.mmioSize
      let read := exec (.read (mmioAddress j w)) s
      let write := exec (.write (mmioAddress j w) v) s
      (∀ ram regs, ent.card = .reg ram regs →
        read = .next { s with
          response := .data ((Memory.read regs m).getD 0), periCalls := .mmioRead j m :: s.periCalls } ∧
        ∃ t regs', write = .next t ∧
          t.slot j = some { ent with card := .reg ram regs' } ∧
          (∀ b, Memory.read regs' b = if b = m then some v else Memory.read regs b) ∧
          (∀ k, k ≠ j → t.slot k = s.slot k) ∧ SameMemory s t ∧
          t = { s with
            peripheralTable := t.peripheralTable, response := .ack, periCalls := .mmioWrite j m v :: s.periCalls }) ∧
      (ent.card = .blank →
        read = .next { s with response := .data 0xFF, periCalls := .mmioRead j m :: s.periCalls } ∧
        write = .next { s with response := .ack, periCalls := .mmioWrite j m v :: s.periCalls }) ∧
      (∀ id token, ent.card = .vendor id token →
        read
          = (match Config.cardMmioRead id token m with
            | some (o, token') =>
              .next { s with
                peripheralTable := s.peripheralTable.set j.val (some { ent with card := .vendor id token' })
                response := .data (o.getD 0xFF)
                periCalls := .mmioRead j m :: s.periCalls }
            | none => .fault (.neverReturns (.card j))) ∧
        write
          = (match Config.cardMmioWrite id token m v with
            | some token' =>
              .next { s with
                peripheralTable := s.peripheralTable.set j.val (some { ent with card := .vendor id token' })
                response := .ack
                periCalls := .mmioWrite j m v :: s.periCalls }
            | none => .fault (.neverReturns (.card j))))

/-! ## The registers of a serial port -/

/-- READs of a port's registers, which change no state but what background agents write and what a vendor card makes of its
own state (R76); where the card's call never returns, neither does the READ (R300). The bus-status byte shows the six
flags of the port's endpoint, bits 7:6 being 0 (R99, R198); a recipient that no longer exists is not connected (log 14). The
block-size pair shows the count and the flag of the peer's last block, `(0x00, 0x20)` without a recipient (R200, R101). That
the card's own answer counts for nothing there, and its own part comes first, is the model's choice (log 16). -/
def Obligations.PortReads : Prop :=
  ∀ (s : State) (w : Nat) (e : EndpointId) (x : Endpoint), Live s e x →
    let answers := fun v : Byte =>
      match tableAfterRead s w with
      | none => exec (.read (mmioAddress s.params.portSlot w)) s = .fault (.neverReturns (.card s.params.portSlot))
      | some table =>
        ∃ t, exec (.read (mmioAddress s.params.portSlot w)) s = .next t ∧ EndpointsKept s t [] ∧ SameMemory s t ∧
          t = { s with
            peripheralTable := table, endpoints := t.endpoints, agentScript := t.agentScript, response := .data v,
            periCalls := .mmioRead s.params.portSlot (portOffset s w) :: s.periCalls }
    (ShowsPort s w (.status e) →
      ∃ v : Byte, answers v ∧
        (v.getLsbD 0 = true ↔
          ∃ f y, x.recipient = some f ∧ s.endpoint? f = some y ∧ y.recipient = some e) ∧
        v.getLsbD 1 = x.ready ∧ v.getLsbD 2 = x.busy ∧ v.getLsbD 3 = x.sendmode ∧ v.getLsbD 4 = x.isMaster ∧
        v.getLsbD 5 = x.isSlave ∧ v.getLsbD 6 = false ∧ v.getLsbD 7 = false) ∧
    (x.recipient = none →
      (ShowsPort s w (.pairLow e) → answers 0x00) ∧ (ShowsPort s w (.pairHigh e) → answers 0x20)) ∧
    (∀ f y, x.recipient = some f → s.endpoint? f = some y → y.bgAgent = false →
      (ShowsPort s w (.pairLow e) → answers (encodePairLow y.blockSize)) ∧
      (ShowsPort s w (.pairHigh e) → answers (encodePairHigh y.blockSize)))

/-- A WRITE of the bus-status byte loads the direction flag from bit 3 and, with bit 2 set, is the START_SEND or START_READ
of that direction; no other bit has an effect (R199). A vendor card may change its own state in the call (R76), and where the
call never returns, neither does the WRITE (R300); that this comes before the port's part is the model's choice (log 16). -/
def Obligations.PortStatusWrite : Prop :=
  ∀ (s : State) (w : Nat) (e : EndpointId) (x : Endpoint) (v : Byte),
    s.runState = .running → s.endpoint? e = some x → ShowsPort s w (.status e) →
      match tableAfterWrite s w v with
      | none => exec (.write (mmioAddress s.params.portSlot w) v) s = .fault (.neverReturns (.card s.params.portSlot))
      | some table =>
        let s1 :=
          { s with
            peripheralTable := table
            periCalls := .mmioWrite s.params.portSlot (portOffset s w) v :: s.periCalls
            endpoints := s.endpoints.map (fun p => if p.1 = e then (p.1, { p.2 with sendmode := v.getLsbD 3 }) else p) }
        exec (.write (mmioAddress s.params.portSlot w) v) s
          = if v.getLsbD 2 then (if v.getLsbD 3 then exec (.startSend e) s1 else exec (.startRead e) s1)
            else .next { s1 with response := .ack }

/-- Count coding (R101): the fields of the coded pair, the decoding of any two bytes, and the round trip of every count
0..4096 with either flag. -/
def Obligations.PairCoding : Prop :=
  (∀ (n : Nat) (c : Bool), n ≤ 4096 →
    (encodePairLow ⟨n, c⟩).toNat = n % 4096 % 256 ∧
    (encodePairHigh ⟨n, c⟩).toNat % 16 = n % 4096 / 256 ∧
    (encodePairHigh ⟨n, c⟩).getLsbD 4 = c ∧ (encodePairHigh ⟨n, c⟩).getLsbD 5 = decide (n = 0) ∧
    (encodePairHigh ⟨n, c⟩).getLsbD 6 = false ∧ (encodePairHigh ⟨n, c⟩).getLsbD 7 = false ∧
    decodePair (encodePairLow ⟨n, c⟩) (encodePairHigh ⟨n, c⟩) = ⟨n, c⟩) ∧
  (∀ low high : Byte,
    decodePair low high =
      ⟨if high.getLsbD 5 then 0
        else if high.toNat % 16 * 256 + low.toNat = 0 then 4096 else high.toNat % 16 * 256 + low.toNat,
        high.getLsbD 4⟩)

/-- A WRITE of one byte of the block-size pair replaces that byte in the image of the endpoint's count and flag, and changes
nothing else of the endpoint (R201, R101, R102): over a low byte, the high byte loads 0 with bit 5 set, 4096 with no length bit
left, and the length otherwise, and the flag from bit 4, bits 7:6 being ignored; under a high byte, a low byte that is not 0
clears a zero length. So two WRITEs, in either order, load any count 1..4095 with its flag, whatever the count was, and a high
byte 0x00 or 0x10 after a low byte 0 loads 4096. A vendor card that shows the port may change its own state (R76, log 16); the
pairs of WRITEs are for a card whose calls return. -/
def Obligations.PortPairWrite : Prop :=
  (∀ (s : State) (w : Nat) (e : EndpointId) (x : Endpoint) (v : Byte), Live s e x → x.blockSize.len ≤ 4096 →
    let low := x.blockSize.len % 256
    let high := x.blockSize.len % 4096 / 256
    (ShowsPort s w (.pairHigh e) →
      let n :=
        if v.getLsbD 5 then 0 else if v.toNat % 16 = 0 ∧ low = 0 then 4096 else v.toNat % 16 * 256 + low
      LoadsPair s w v e { x with blockSize := ⟨n, v.getLsbD 4⟩ }) ∧
    (ShowsPort s w (.pairLow e) →
      let n :=
        if v ≠ 0 then high * 256 + v.toNat
        else if x.blockSize.len = 0 then 0 else if high = 0 then 4096 else high * 256
      LoadsPair s w v e { x with blockSize := ⟨n, x.blockSize.cont⟩ })) ∧
  (∀ (s : State) (low high : Nat) (e : EndpointId) (x : Endpoint) (c : Bool), Live s e x → PortCardReturns s →
    ShowsPort s low (.pairLow e) → ShowsPort s high (.pairHigh e) → x.blockSize.len ≤ 4096 →
      let writes := fun (w : Nat) (v : Byte) (w' : Nat) (v' : Byte) (b : BlockSize) =>
        ∃ t u, exec (.write (mmioAddress s.params.portSlot w) v) s = .next t ∧
          exec (.write (mmioAddress s.params.portSlot w') v') t = .next u ∧
          u.endpoint? e = some { x with blockSize := b } ∧ EndpointsKept s u [e] ∧ SameMemory s u
      (∀ n, 1 ≤ n → n ≤ 4095 →
        let lo : Byte := BitVec.ofNat 8 (n % 256)
        let hi : Byte := BitVec.ofNat 8 (n / 256 + 16 * c.toNat)
        writes low lo high hi ⟨n, c⟩ ∧ writes high hi low lo ⟨n, c⟩) ∧
      writes low 0x00 high (if c then 0x10 else 0x00) ⟨4096, c⟩)

/-! ## The allocator -/

/-- MALLOC completes at the least clear run long enough (R161, R162): the response is its offset, its bits are set, it is
recorded, and nothing else changes; no byte of user RAM is touched. -/
def Obligations.MallocFirstFit : Prop :=
  ∀ (s : State) (size : Int) (i : Nat), s.runState = .running → 0 < size →
    let n := (size.toNat + 63) / 64
    i + n ≤ s.allocBits.length → (∀ k, i ≤ k → k < i + n → s.allocBits[k]? = some false) →
    (∀ j, j < i → ∃ k, j ≤ k ∧ k < j + n ∧ s.allocBits[k]? = some true) →
      ∃ t, exec (.malloc size) s = .next t ∧ t.response = .offset (64 * i) ∧
        (∀ k, t.allocBits[k]? = if i ≤ k ∧ k < i + n then some true else s.allocBits[k]?) ∧
        (∀ k, t.allocMap.lookup k = if k = i then some n else s.allocMap.lookup k) ∧
        SameMemory s t ∧
        t = { s with allocBits := t.allocBits, allocMap := t.allocMap, response := .offset (64 * i) }

/-- The faults of MALLOC: a size that is not positive is an `InvalidAllocSizeFault` (R295), and otherwise no clear run long
enough is an `OutOfMemoryFault` (R293), each with the size and with the state as it was. -/
def Obligations.MallocFaults : Prop :=
  ∀ (s : State) (size : Int), s.runState = .running →
    (size ≤ 0 →
      exec (.malloc size) s = .next { s with response := .fault .invalidAllocSize size s.params.machineId }) ∧
    (0 < size →
      (∀ i, i + (size.toNat + 63) / 64 ≤ s.allocBits.length →
        ∃ k, i ≤ k ∧ k < i + (size.toNat + 63) / 64 ∧ s.allocBits[k]? = some true) →
      exec (.malloc size) s = .next { s with response := .fault .outOfMemory size s.params.machineId })

/-- FREE of a live allocation completes: its bits are cleared, it is no longer recorded, and nothing else changes; a second
FREE of the same offset faults (R163). -/
def Obligations.FreeReleases : Prop :=
  ∀ (s : State) (i n : Nat), s.runState = .running → s.allocMap.lookup i = some n →
    ∃ t, exec (.free (64 * i : Nat)) s = .next t ∧
      (∀ k, t.allocBits[k]? = if i ≤ k ∧ k < i + n then (s.allocBits[k]?).map (fun _ => false) else s.allocBits[k]?) ∧
      (∀ k, t.allocMap.lookup k = if k = i then none else s.allocMap.lookup k) ∧
      SameMemory s t ∧ t = { s with allocBits := t.allocBits, allocMap := t.allocMap, response := .ack } ∧
      exec (.free (64 * i : Nat)) t
        = .next { t with response := .fault .invalidFree (64 * i : Nat) s.params.machineId }

/-- FREE of anything else: `InvalidFreeFault` with the offset, the state as it was (R294): a negative offset, one that is
not a multiple of 64, one that is not the start of a live allocation. -/
def Obligations.InvalidFree : Prop :=
  ∀ (s : State) (offset : Int), s.runState = .running →
    offset < 0 ∨ offset % 64 ≠ 0 ∨ s.allocMap.lookup (offset.toNat / 64) = none →
      exec (.free offset) s = .next { s with response := .fault .invalidFree offset s.params.machineId }

/-- Reuse (R165): after the FREE of a block of `c` units at unit `i`, the next MALLOC of at most `c` units succeeds at an
offset that is not higher, and at exactly that offset when no clear run long enough starts below. -/
def Obligations.Reuse : Prop :=
  ∀ (s : State) (i c : Nat) (size : Int), s.runState = .running → AllocInv s → s.allocMap.lookup i = some c →
    0 < size → (size.toNat + 63) / 64 ≤ c →
      ∃ t u o, exec (.free (64 * i : Nat)) s = .next t ∧ exec (.malloc size) t = .next u ∧
        u.response = .offset o ∧ o ≤ 64 * i ∧
        ((∀ j, j < i → ∃ k, j ≤ k ∧ k < j + (size.toNat + 63) / 64 ∧ t.allocBits[k]? = some true) → o = 64 * i)

/-- Every step keeps the allocator's invariant (R29). -/
def Obligations.AllocInvKept : Prop := ∀ s t : State, AllocInv s → step s = .next t → AllocInv t

/-- Exclusivity (R164): whatever is asked of a machine from its construction on, no two live allocations share a byte, and
each lies inside the arena. -/
def Obligations.Exclusivity : Prop :=
  ∀ s : State, Reachable s →
    s.allocMap.Pairwise (fun p q => 64 * (p.1 + p.2) ≤ 64 * q.1 ∨ 64 * (q.1 + q.2) ≤ 64 * p.1) ∧
    ∀ p ∈ s.allocMap, 1 ≤ p.2 ∧ 64 * (p.1 + p.2) ≤ 64 * (s.memsize / 64)

/-! ## Cables -/

/-- ATTACH pairs two different endpoints and writes exactly their two `recipient` fields (R182); DETACH clears one such field
and nothing else, the former peer's staying as it is (R183). Both complete in either run state (R26). -/
def Obligations.Cabling : Prop :=
  (∀ (s : State) (e f : EndpointId) (x y : Endpoint), e ≠ f → s.endpoint? e = some x → s.endpoint? f = some y →
    ∃ t, exec (.attach e f) s = .next t ∧ t.endpoint? e = some { x with recipient := some f } ∧
      t.endpoint? f = some { y with recipient := some e } ∧
      (∀ g, g ≠ e → g ≠ f → t.endpoint? g = s.endpoint? g) ∧ SameMemory s t ∧
      t = { s with endpoints := t.endpoints, response := .ack }) ∧
  (∀ (s : State) (e : EndpointId) (x : Endpoint), s.endpoint? e = some x →
    ∃ t, exec (.detach e) s = .next t ∧ t.endpoint? e = some { x with recipient := none } ∧
      (∀ g, g ≠ e → t.endpoint? g = s.endpoint? g) ∧ SameMemory s t ∧
      t = { s with endpoints := t.endpoints, response := .ack })

/-- CABLE answers whether the recipient's recipient is the endpoint itself (R184), and HAS_NEXT whether the device's queue
holds bytes (R188, R202, R255), or what a vendor device's hook answers, if it returns (R181, R300); both complete in
the machine that runs (R26, log 13) and change nothing but the response. A recipient that no longer exists is not
connected (log 14). -/
def Obligations.LinkQueries : Prop :=
  (∀ (s : State) (e : EndpointId) (x : Endpoint), s.runState = .running → s.endpoint? e = some x →
    ∃ b, exec (.cable e) s = .next { s with response := .bool b } ∧
      (b = true ↔ ∃ f y, x.recipient = some f ∧ s.endpoint? f = some y ∧ y.recipient = some e)) ∧
  (∀ (s : State) (e : EndpointId) (x : Endpoint) (q : Bytes), s.runState = .running → s.endpoint? e = some x →
    x.device.queued = some q →
    exec (.hasNext e) s = .next { s with response := .bool (decide (0 < q.length)) }) ∧
  (∀ (s : State) (e : EndpointId) (x : Endpoint) (id token : Nat), s.runState = .running →
    s.endpoint? e = some x → x.device = .vendor id token →
    exec (.hasNext e) s
      = (match Config.hookHasNext id token with
        | some b => .next { s with response := .bool b }
        | none => .fault (.neverReturns (.device e))))

/-- Symmetry (R203 (1)): after ATTACH A, B both are connected; a later ATTACH A, C leaves B unconnected, and a later DETACH A
leaves both unconnected. CABLE is asked of a running machine (R26); ATTACH and DETACH do not look at the run state. -/
def Obligations.CableSymmetry : Prop :=
  ∀ (s : State) (a b c : EndpointId) (x y z : Endpoint), s.runState = .running → a ≠ b → a ≠ c → b ≠ c →
    s.endpoint? a = some x → s.endpoint? b = some y → s.endpoint? c = some z →
      ∃ t u v, exec (.attach a b) s = .next t ∧ exec (.attach a c) t = .next u ∧ exec (.detach a) t = .next v ∧
        exec (.cable a) t = .next { t with response := .bool true } ∧
        exec (.cable b) t = .next { t with response := .bool true } ∧
        exec (.cable b) u = .next { u with response := .bool false } ∧
        exec (.cable a) v = .next { v with response := .bool false } ∧
        exec (.cable b) v = .next { v with response := .bool false }

/-! ## Transfers -/

/-- WRITEOUT completes (R187): the receive hook gets the first 4096 bytes of the data, the frame on the wire is those bytes
padded with zeros, the receiver's count is set and its flag kept, the endpoint is idle again, and the delay step of R196
has run on the clock's advance (a free value, log 10). -/
def Obligations.WriteoutDelivers : Prop :=
  ∀ (s : State) (f : EndpointId) (x : Endpoint) (data : Bytes) (d : Device) (status : Option Int),
    Live s f x → x.consume (data.take 4096) = some (d, status) →
      let n := min data.length 4096
      let wait := Config.clockAdvance (s.clockReads + 1)
      ∃ t, exec (.writeout f data) s = .next t ∧ t.response = .ack ∧ LinkFrame s t ∧ EndpointsKept s t [f] ∧
        t.wire = some ⟨f, data.take 4096 ++ List.replicate (4096 - n) 0, n⟩ ∧
        t.endpoint? f = some
          { x with
            busy := false, ready := true, blockSize := ⟨n, x.blockSize.cont⟩, device := d,
            statusCode := status.getD x.statusCode,
            delayAcc := (delayStep x.delayAcc n x.baud wait).1 } ∧
        t.slept = s.slept + (delayStep x.delayAcc n x.baud wait).2

/-- START_SEND between two endpoints completes (R185): what the sender's hook produces is written out into the recipient;
sender and receiver show the same count (R203 (4)), the sender's flag is its device's answer, and both are idle. Each side's
delay step runs on the time since its own entry: the sender's contains the receiver's sleep (R196), and a block of no bytes
changes neither accumulator (R197). The clock's advances are free values (log 10). -/
def Obligations.StartSendDelivers : Prop :=
  ∀ (s : State) (e f : EndpointId) (x y : Endpoint) (data : Bytes) (d r : Device) (more : Bool) (status : Option Int),
    Live s e x → Live s f y → e ≠ f → x.recipient = some f → produceOf e x = .next (data, d) →
    hasNextOf e d = .next more → y.consume data = some (r, status) →
      let n := data.length
      let received := delayStep y.delayAcc n y.baud (Config.clockAdvance (s.clockReads + 2))
      let sent := delayStep x.delayAcc n x.baud (senderElapsed s.clockReads received.2)
      ∃ t, exec (.startSend e) s = .next t ∧ t.response = .ack ∧ LinkFrame s t ∧ EndpointsKept s t [e, f] ∧
        t.wire = some ⟨f, data ++ List.replicate (4096 - n) 0, n⟩ ∧
        t.endpoint? e = some
          { x with busy := false, ready := true, blockSize := ⟨n, more⟩, device := d, delayAcc := sent.1 } ∧
        t.endpoint? f = some
          { y with
            busy := false, ready := true, blockSize := ⟨n, y.blockSize.cont⟩, device := r,
            statusCode := status.getD y.statusCode, delayAcc := received.1 } ∧
        t.slept = s.slept + received.2 + sent.2 ∧
        (data = [] → sent = (x.delayAcc, 0) ∧ received = (y.delayAcc, 0))

/-- The send hooks of reference endpoints and command devices pick the first 4096 bytes still to come and have more exactly
when bytes remain (R202, R254, R255). -/
def Obligations.QueuedBlock : Prop :=
  ∀ (e : EndpointId) (x : Endpoint) (q : Bytes), x.device.queued = some q →
    produceOf e x = .next (q.take 4096, x.device.afterSending (min 4096 q.length)) ∧
    hasNextOf e (x.device.afterSending (min 4096 q.length)) = .next (decide (4096 < q.length)) ∧
    (x.device.afterSending (min 4096 q.length)).queued = some (q.drop 4096)

/-- START_READ is the recipient's START_SEND (R186), and so completes wherever that does. Without a recipient it does
nothing; neither does RECV_MESSAGE, whose answer is the empty sequence (R189); and START_SEND ends with the two flags as
idle, no hook, count, delay or wire touched (R185). -/
def Obligations.StartReadIsPeersSend : Prop :=
  ∀ (s : State) (e : EndpointId) (x : Endpoint), s.runState = .running → s.endpoint? e = some x →
    (∀ f, x.recipient = some f → exec (.startRead e) s = exec (.startSend f) s) ∧
    (x.recipient = none →
      exec (.startRead e) s = .next { s with response := .ack } ∧
      exec (.recvMessage e) s = .next { s with response := .bytes [] } ∧
      (x.bgAgent = false →
        ∃ t, exec (.startSend e) s = .next t ∧ t.response = .ack ∧ LinkFrame s t ∧ EndpointsKept s t [e] ∧
          t.endpoint? e = some { x with busy := false, ready := true } ∧ t.wire = s.wire ∧ t.slept = s.slept))

/-- Conservation (R203 (5)), for reference endpoints and for command devices with a staged reply: RECV_MESSAGE on a properly
cabled reference endpoint answers all the peer has queued, in one block at least and one for every 4096 bytes begun,
appends it to the receiver's log and leaves the peer with nothing; both ends are idle. A block is two readings of the
clock, four when it carries bytes (R196); the count of readings is the model's own field (log 10).
On any endpoint with a recipient RECV_MESSAGE is the loop of R189: it has the outcome of as many turns as end the loop, and no
next state where no number of turns ends it (R300). So against a peer that was detached it answers nothing when the peer's
continuation flag is clear, and never returns when it is set, which nothing then clears (R185). -/
def Obligations.RecvConservation : Prop :=
  (∀ (s : State) (a b : EndpointId) (x y : Endpoint) (m tx rx : Bytes),
    Live s a x → Live s b y → a ≠ b → x.recipient = some b → y.recipient = some a →
    x.device.queued = some m → y.device = .reference tx rx →
      ∃ t x' y', exec (.recvMessage b) s = .next t ∧ t.response = .bytes m ∧
        t.endpoint? a = some x' ∧ t.endpoint? b = some y' ∧ EndpointsKept s t [a, b] ∧
        x'.device = x.device.afterSending m.length ∧ x'.device.queued = some [] ∧ x'.blockSize.cont = false ∧
        y'.device = .reference tx (rx ++ m) ∧
        x'.ready = true ∧ x'.busy = false ∧ y'.ready = true ∧ y'.busy = false ∧
        t.clockReads = s.clockReads + (if m = [] then 2 else 4 * ((m.length + 4095) / 4096)) ∧
        LinkFrame s t) ∧
  (∀ (s : State) (e f : EndpointId) (x : Endpoint),
    s.runState = .running → s.endpoint? e = some x → x.recipient = some f →
      (∀ turns r, recvWithin turns e f [] s = some r → exec (.recvMessage e) s = r) ∧
      ((∀ turns, recvWithin turns e f [] s = none) → exec (.recvMessage e) s = .fault (.neverReturns (.flag f)))) ∧
  (∀ (s : State) (e f : EndpointId) (x y : Endpoint),
    s.endpoint? e = some x → x.recipient = some f → Live s f y → y.recipient = none →
      (y.blockSize.cont = true → exec (.recvMessage e) s = .fault (.neverReturns (.flag f))) ∧
      (y.blockSize.cont = false →
        ∃ t, exec (.recvMessage e) s = .next t ∧ t.response = .bytes [] ∧ LinkFrame s t ∧ EndpointsKept s t [f] ∧
          t.endpoint? f = some { y with busy := false, ready := true }))

/-- The delay step (R196, R197): no byte changes nothing and never sleeps; otherwise the accumulator grows by the expected
less the elapsed time, and beyond 1000000 ns the whole of it is slept; a full block at 9600 baud sleeps 4266666666 ns less
the elapsed time, and its sender then about nothing. -/
def Obligations.DelayStep : Prop :=
  (∀ (acc : Int) (baud elapsed : Nat), delayStep acc 0 baud elapsed = (acc, 0)) ∧
  (∀ (acc : Int) (bytes baud elapsed : Nat), 0 < bytes →
    let due := acc + (bytes * 10 * 1000000000 / baud : Nat) - elapsed
    delayStep acc bytes baud elapsed = if 1000000 < due then (0, due.toNat) else (due, 0)) ∧
  (∀ elapsed : Nat, elapsed < 4265666666 → delayStep 0 4096 9600 elapsed = (0, 4266666666 - elapsed)) ∧
  (∀ late : Nat, delayStep 0 4096 9600 (4266666666 + late) = (-(late : Int), 0))

/-- Every step leaves every endpoint at rest (R32, R34, R203 (3)): idle unless it has a background agent, its count at
most 4096. -/
def Obligations.LinkInvKept : Prop := ∀ s t : State, LinkInv s → step s = .next t → LinkInv t

/-! ## Configuration -/

/-- INSTALL completes while HALTED (R140): a card in the slot is disposed of once and the endpoints it owned are gone, the
new entry stands in the slot, the endpoints its card owns are there with their reset values (R321), and the rest is as
before. The model's choices, not the spec's: which endpoints a card owns, that an endpoint created replaces one of the same
identifier, that a REGCARD starts at zero and a vendor card at a free token drawn by the count of INSTALLs (log 17); and that
each endpoint's device and its store stand anew as the build has them at every INSTALL, whatever an earlier card of the same
kind left there (log 26). -/
def Obligations.InstallPlaces : Prop :=
  ∀ (s : State) (k : Slot) (card : Peripheral) (ram regs irqs : Nat) (owned : List (EndpointId × EndpointBuild)),
    s.runState = .halted → ram ≤ 1048576 → regs ≤ 131072 →
    (∀ ent id token, s.slot k = some ent → ent.card = .vendor id token → Config.cardDisposeReturns id token = true) →
    (s.params.cardEndpoints.lookup card).getD [] = owned → (owned.map Prod.fst).Nodup →
      ∃ t c, exec (.install k.val card ram regs irqs) s = .next t ∧ t.response = .ack ∧
        t.slot k = some ⟨c, ram, regs, irqs⟩ ∧ (∀ j, j ≠ k → t.slot j = s.slot j) ∧
        (card = .regCard → c = .reg [] []) ∧ (card = .blank → c = .blank) ∧
        (∀ id, card = .vendor id → ∃ token, c = .vendor id token) ∧
        t.periCalls = (if (s.slot k).isSome then .dispose k :: s.periCalls else s.periCalls) ∧
        (∀ f b, owned.lookup f = some b → t.endpoint? f = some (b.construct (some k))) ∧
        (∀ f x, owned.lookup f = none → s.endpoint? f = some x → x.owner ≠ some k → t.endpoint? f = some x) ∧
        (∀ f, owned.lookup f = none → s.endpoint? f = none → t.endpoint? f = none) ∧
        ((s.slot k).isSome → ∀ p ∈ t.endpoints, p.2.owner = some k → (owned.lookup p.1).isSome) ∧
        SameMemory s t ∧
        t = { s with
          peripheralTable := t.peripheralTable, endpoints := t.endpoints, periCalls := t.periCalls,
          installs := s.installs + 1, response := .ack }

/-- REMOVE completes while HALTED (R141): a card in the slot is disposed of once, the slot is empty, the endpoints the card
owned are gone, and the rest is as before; an empty slot stays as it is. -/
def Obligations.RemoveEmpties : Prop :=
  ∀ (s : State) (k : Slot), s.runState = .halted →
    (s.slot k = none → exec (.remove k.val) s = .next { s with response := .ack }) ∧
    (∀ ent, s.slot k = some ent →
      (∀ id token, ent.card = .vendor id token → Config.cardDisposeReturns id token = true) →
        ∃ t, exec (.remove k.val) s = .next t ∧ t.slot k = none ∧ (∀ j, j ≠ k → t.slot j = s.slot j) ∧
          t.periCalls = .dispose k :: s.periCalls ∧
          (∀ p, p ∈ t.endpoints ↔ p ∈ s.endpoints ∧ p.2.owner ≠ some k) ∧ SameMemory s t ∧
          t = { s with
            peripheralTable := t.peripheralTable, endpoints := t.endpoints, periCalls := t.periCalls,
            response := .ack })

/-- START and HALT complete in every state and change nothing but the run state (R142, R143). -/
def Obligations.StartAndHalt : Prop :=
  ∀ s : State,
    exec .start s = .next { s with runState := .running, response := .ack } ∧
    exec .halt s = .next { s with runState := .halted, response := .ack }

/-- RESET completes in every state (R144): every element takes its reset value of R321; the table, the cables, the constants
and what is outside the block are kept. User RAM and `romMapping` become free values (log 4, log 5). That no card and no vendor
device resets itself, which R144 leaves to the card, is the model's choice (log 28). -/
def Obligations.ResetRestores : Prop :=
  ∀ s : State, ∃ t, exec .reset s = .next t ∧
    t.runState = .halted ∧ t.allocBits = List.replicate (s.memsize / 64) false ∧ t.allocMap = [] ∧
    (∀ e, s.endpoint? e = none → t.endpoint? e = none) ∧
    (∀ e x, s.endpoint? e = some x →
      ∃ d, t.endpoint? e = some
          { x with
            ready := true, busy := false, statusCode := 0, blockSize := ⟨0, false⟩, sendmode := false, delayAcc := 0,
            device := d } ∧
        (∀ c, x.device = .command c →
          d = .command
            { c with
              session := {
                fileOpen := false, openMode := .r, curPath := none, drive := none, writeBuffer := [], writeTarget := 0,
                writeBufferUsage := 0, accumulating := false, sendBuffer := [], sendPos := 0 } }) ∧
        (∀ tx rx, x.device = .reference tx rx → d = .reference [] []) ∧
        (∀ id token, x.device = .vendor id token → d = .vendor id token)) ∧
    (∀ a, t.userByte a = Config.freeRamByte (s.resetCount + 1) a) ∧
    t = { s with
      runState := .halted, userMemory := t.userMemory, romMapping := t.romMapping, allocBits := t.allocBits,
      allocMap := t.allocMap, endpoints := t.endpoints, resetCount := s.resetCount + 1, response := .ack }

/-- After construction every machine, whatever it is built of, is halted with an empty table, an empty allocator and every
endpoint uncabled and idle, every command session at its reset values and every reference endpoint's queue and log empty
(R320, R321), with no background agent behind a command device (R43) or a reference endpoint (R202), and meets every invariant
of the model; the fixture machine of `State.reset` is one of them (log 3). -/
def Obligations.ConstructedMachine : Prop :=
  State.reset = State.construct Build.fixture ∧
  ∀ b : Build,
    let s := State.construct b
    s.runState = .halted ∧ s.params = b.params ∧ (∀ k, s.slot k = none) ∧
    s.allocBits = List.replicate (b.params.memsize.val / 64) false ∧ s.allocMap = [] ∧
    (∀ p ∈ s.endpoints,
      p.2.recipient = none ∧ p.2.ready = true ∧ p.2.busy = false ∧ p.2.statusCode = 0 ∧ p.2.blockSize = ⟨0, false⟩ ∧
      p.2.sendmode = false ∧ p.2.delayAcc = 0 ∧ (p.2.bgAgent = true → ∃ id token, p.2.device = .vendor id token) ∧
      (∀ d, p.2.device = .command d →
        d.session = {
          fileOpen := false, openMode := .r, curPath := none, drive := none, writeBuffer := [], writeTarget := 0,
          writeBufferUsage := 0, accumulating := false, sendBuffer := [], sendPos := 0 }) ∧
      (∀ tx rx, p.2.device = .reference tx rx → tx = [] ∧ rx = [])) ∧
    MemoryInv s ∧ AllocInv s ∧ TableInv s ∧ SessionInv s ∧ LinkInv s ∧ CableInv s

/-- What is refused (R306): an operation of the initiator while HALTED (R26; for CABLE and HAS_NEXT log 13), INSTALL and REMOVE
while RUNNING, an endpoint attached to itself, an operand of INSTALL or REMOVE out of its bounds (U13, log 19), an operation
on an endpoint that does not exist or a transfer along a recipient that does not (R141, U12, log 14), and a send hook of more
than 4096 bytes (R181, U8). Which refusal answers where two apply is the model's choice (log 19). -/
def Obligations.Refusals : Prop :=
  ∀ s : State,
    (s.runState = .halted →
      (∀ a, exec (.read a) s = .refused .whileHalted) ∧ (∀ a v, exec (.write a v) s = .refused .whileHalted) ∧
      (∀ n, exec (.malloc n) s = .refused .whileHalted) ∧ (∀ n, exec (.free n) s = .refused .whileHalted) ∧
      (∀ e, exec (.cable e) s = .refused .whileHalted) ∧ (∀ e, exec (.hasNext e) s = .refused .whileHalted) ∧
      (∀ e, exec (.startSend e) s = .refused .whileHalted) ∧ (∀ e, exec (.startRead e) s = .refused .whileHalted) ∧
      (∀ e data, exec (.writeout e data) s = .refused .whileHalted) ∧
      (∀ e, exec (.recvMessage e) s = .refused .whileHalted) ∧
      (∀ k card m r n, 8 ≤ k ∨ m < 0 ∨ 1048576 < m ∨ r < 0 ∨ 131072 < r ∨ n < 0 →
        exec (.install k card m r n) s = .refused .cfgOperand) ∧
      (∀ k, 8 ≤ k → exec (.remove k) s = .refused .cfgOperand)) ∧
    (s.runState = .running →
      (∀ k card m r n, exec (.install k card m r n) s = .refused .whileRunning) ∧
      (∀ k, exec (.remove k) s = .refused .whileRunning)) ∧
    (∀ e, exec (.attach e e) s = .refused .selfAttach) ∧
    (∀ e, s.endpoint? e = none →
      (∀ f, f ≠ e → exec (.attach e f) s = .refused (.noEndpoint e)) ∧
      (∀ f x, f ≠ e → s.endpoint? f = some x → exec (.attach f e) s = .refused (.noEndpoint e)) ∧
      exec (.detach e) s = .refused (.noEndpoint e) ∧
      (s.runState = .running →
        exec (.cable e) s = .refused (.noEndpoint e) ∧ exec (.hasNext e) s = .refused (.noEndpoint e) ∧
        exec (.startSend e) s = .refused (.noEndpoint e) ∧ exec (.startRead e) s = .refused (.noEndpoint e) ∧
        (∀ data, exec (.writeout e data) s = .refused (.noEndpoint e)) ∧
        exec (.recvMessage e) s = .refused (.noEndpoint e))) ∧
    (∀ e x f, Live s e x → x.recipient = some f → s.endpoint? f = none →
      exec (.startRead e) s = .refused (.noEndpoint f) ∧ exec (.recvMessage e) s = .refused (.noEndpoint f) ∧
      ∀ data d, produceOf e x = .next (data, d) → exec (.startSend e) s = .refused (.noEndpoint f)) ∧
    (∀ e x f id token, Live s e x → x.recipient = some f → x.device = .vendor id token →
      match Config.hookProduce id token x.blockSize.len with
      | none => exec (.startSend e) s = .fault (.neverReturns (.device e))
      | some (data, _) => 4096 < data.length → exec (.startSend e) s = .refused (.hookContract e))

/-! ## Commands -/

/-- A command is the payload of one WRITEOUT (R103, R230): every well-formed command operation does exactly what the WRITEOUT
of its bytes on its endpoint does, in every state; while the device is accumulating, that is taking the bytes as data (R232).
That the operation is the whole WRITEOUT, on any endpoint and whatever device is behind it, is the model's choice (log 7):
the rules speak of a command device. -/
def Obligations.CommandIsItsWriteout : Prop :=
  ∀ (i : Instr) (e : EndpointId) (payload : Bytes) (s : State),
    i.WellFormed → encode i = .cmd e payload → exec i s = exec (.writeout e payload) s

/-- The device commands and CLOSE. DEVRST returns the session to its reset values with status 0 (R235); CLOSE releases the
handle, keeps the rest of the session, and sets 0 whether or not a handle was open (R246). DEVSTU stages the status modulo
256 as one byte, 0x1F, its message and 0x17, and leaves the status (R236); the message of 129 is NO SUCH FILE EXISTS (R43),
and one the device does not list is empty (log 22). DEVTYP and DEVNAM stage the device's strings and 0x17 (R237, R238). -/
def Obligations.DeviceCommands : Prop :=
  ∀ (s : State) (e : EndpointId) (x : Endpoint) (d : CommandDevice) (tail : Tail), AwaitsCommand s e x d →
    let staged := fun bytes : Bytes => { d with session := { d.session with sendBuffer := bytes, sendPos := 0 } }
    (5 + tail.bytes.length ≤ 4096 →
      Leaves (.cmdClose e tail) s e x (5 + tail.bytes.length)
        { d with session := { d.session with fileOpen := false } } 0) ∧
    (6 + tail.bytes.length ≤ 4096 →
      Leaves (.cmdDevrst e tail) s e x (6 + tail.bytes.length)
        { d with
          session := {
            fileOpen := false, openMode := .r, curPath := none, drive := none, writeBuffer := [], writeTarget := 0,
            writeBufferUsage := 0, accumulating := false, sendBuffer := [], sendPos := 0 } } 0 ∧
      Leaves (.cmdDevstu e tail) s e x (6 + tail.bytes.length)
        (staged ([BitVec.ofInt 8 x.statusCode, 0x1F] ++ d.message (BitVec.ofInt 8 x.statusCode) ++ [0x17]))
        x.statusCode ∧
      (x.statusCode = 129 →
        Leaves (.cmdDevstu e tail) s e x (6 + tail.bytes.length)
          (staged [0x81, 0x1F, 0x4E, 0x4F, 0x20, 0x53, 0x55, 0x43, 0x48, 0x20, 0x46, 0x49, 0x4C, 0x45, 0x20, 0x45, 0x58,
            0x49, 0x53, 0x54, 0x53, 0x17]) 129) ∧
      Leaves (.cmdDevtyp e tail) s e x (6 + tail.bytes.length) (staged (d.devType ++ [0x17])) x.statusCode ∧
      Leaves (.cmdDevnam e tail) s e x (6 + tail.bytes.length) (staged (d.devName ++ [0x17])) x.statusCode)

/-- OPENR, its checks in their order (R239): the grammar (128), a handle already open (130), then the path and the drive are
stored and the store answers 192, 193, 129, or opens the handle in mode R. -/
def Obligations.OpenRead : Prop :=
  ∀ (s : State) (e : EndpointId) (x : Endpoint) (d : CommandDevice) (arg : Bytes) (tail : Tail), AwaitsCommand s e x d →
    0x17 ∉ arg → 5 + arg.length + tail.bytes.length ≤ 4096 →
      let leaves := Leaves (.cmdOpenr e arg tail) s e x (5 + arg.length + tail.bytes.length)
      (parseOpen arg = none → leaves d 128) ∧
      ∀ raw drive, parseOpen arg = some (raw, drive) →
        (d.session.fileOpen = true → leaves d 130) ∧
        (d.session.fileOpen = false →
          let p := sanitise d.forbidden raw
          ∀ answer store, d.store.stat p = (answer, store) →
            let d1 := { d.withPath p drive with store := store }
            (answer = .ioError → leaves d1 192) ∧ (answer = .secError → leaves d1 193) ∧
            (answer = .missing → leaves d1 129) ∧
            (answer = .dir ∨ (∃ len, answer = .file len) →
              leaves { d1 with session := { d1.session with fileOpen := true, openMode := .r } } 0))

/-- OPENW and OPENA, their checks in their order (R240, R241): the grammar (128), a handle already open (130), then the path
and the drive are stored and a read-only store answers 132, or the handle is open in mode W or A; the store is not asked. -/
def Obligations.OpenWrite : Prop :=
  ∀ (s : State) (e : EndpointId) (x : Endpoint) (d : CommandDevice) (arg : Bytes) (tail : Tail), AwaitsCommand s e x d →
    0x17 ∉ arg → 5 + arg.length + tail.bytes.length ≤ 4096 →
      ∀ (i : Instr) (mode : OpenMode),
        (i = .cmdOpenw e arg tail ∧ mode = .w) ∨ (i = .cmdOpena e arg tail ∧ mode = .a) →
          let leaves := Leaves i s e x (5 + arg.length + tail.bytes.length)
          (parseOpen arg = none → leaves d 128) ∧
          ∀ raw drive, parseOpen arg = some (raw, drive) →
            (d.session.fileOpen = true → leaves d 130) ∧
            (d.session.fileOpen = false →
              let d1 := d.withPath (sanitise d.forbidden raw) drive
              (d.store.readOnly = true → leaves d1 132) ∧
              (d.store.readOnly = false →
                leaves { d1 with session := { d1.session with fileOpen := true, openMode := mode } } 0))

/-- The grammars of the arguments (R105, R106, R11). OPEN: a path between two quotes, followed by nothing or by a comma and
decimal digits whose value is the drive. WRITE: one or more decimal digits and nothing else; leading zeros are allowed, and
the value of `dec(n)` is n. -/
def Obligations.ArgumentGrammars : Prop :=
  (∀ (arg path : Bytes) (drive : Option Nat),
    parseOpen arg = some (path, drive) ↔
      0x22 ∉ path ∧
      ((arg = [0x22] ++ path ++ [0x22] ∧ drive = none) ∨
        ∃ digits n, arg = [0x22] ++ path ++ [0x22, 0x2C] ++ digits ∧ parseDigits digits = some n ∧ drive = some n)) ∧
  (∀ digits : Bytes,
    (parseDigits digits).isSome ↔ digits ≠ [] ∧ ∀ b ∈ digits, 0x30 ≤ b.toNat ∧ b.toNat ≤ 0x39) ∧
  (∀ (digits : Bytes) (n : Nat), parseDigits digits = some n → parseDigits (0x30 :: digits) = some n) ∧
  (∀ n : Nat, parseDigits (decimal n) = some n)

/-- Path sanitising (R234). Whatever the input, every segment is a real one, without a separator or a forbidden byte, so that
the target is at or below the root. Real segments between `/` or between `\` come back as they are, in order. A forbidden
byte is as if it were not there, a `\` is a `/`. Where the forbidden bytes include neither `/` nor `.`: an empty segment and a
`.` are skipped, a real segment and the `..` after it are undone, at the end of a path too, and a leading `..` has no
effect. -/
def Obligations.SanitisedPaths : Prop :=
  (∀ (forbidden raw seg : Bytes), seg ∈ sanitise forbidden raw → RealSegment forbidden seg) ∧
  (∀ (forbidden : Bytes) (sep : Byte) (segs : Path), 0x2F ∉ forbidden → sep = 0x2F ∨ sep = 0x5C →
    (∀ seg ∈ segs, RealSegment forbidden seg) → sanitise forbidden (joinSegments sep segs) = segs) ∧
  (∀ (forbidden a b : Bytes) (c : Byte), c ∈ forbidden → c ≠ 0x5C →
    sanitise forbidden (a ++ [c] ++ b) = sanitise forbidden (a ++ b)) ∧
  (∀ forbidden a b : Bytes, sanitise forbidden (a ++ [0x5C] ++ b) = sanitise forbidden (a ++ [0x2F] ++ b)) ∧
  (∀ (forbidden a b : Bytes), 0x2E ∉ forbidden → 0x2F ∉ forbidden →
    sanitise forbidden (a ++ [0x2F, 0x2F] ++ b) = sanitise forbidden (a ++ [0x2F] ++ b) ∧
    sanitise forbidden (a ++ [0x2F, 0x2E, 0x2F] ++ b) = sanitise forbidden (a ++ [0x2F] ++ b) ∧
    sanitise forbidden ([0x2F] ++ b) = sanitise forbidden b ∧
    sanitise forbidden ([0x2E, 0x2F] ++ b) = sanitise forbidden b ∧
    sanitise forbidden ([0x2E, 0x2E, 0x2F] ++ b) = sanitise forbidden b ∧
    ∀ seg, RealSegment forbidden seg →
      sanitise forbidden (a ++ [0x2F] ++ seg ++ [0x2F, 0x2E, 0x2E, 0x2F] ++ b) = sanitise forbidden (a ++ [0x2F] ++ b) ∧
      sanitise forbidden (a ++ [0x2F] ++ seg ++ [0x2F, 0x2E, 0x2E]) = sanitise forbidden a)

/-- READ, its checks in their order (R242): no handle (135), a handle not in mode R (131), then the store: 192, 193, 131 for
what is no file, or the whole content is staged. -/
def Obligations.ReadStages : Prop :=
  ∀ (s : State) (e : EndpointId) (x : Endpoint) (d : CommandDevice) (tail : Tail), AwaitsCommand s e x d →
    4 + tail.bytes.length ≤ 4096 →
      let leaves := Leaves (.cmdRead e tail) s e x (4 + tail.bytes.length)
      (d.session.fileOpen = false → leaves d 135) ∧
      (d.session.fileOpen = true → d.session.openMode ≠ .r → leaves d 131) ∧
      (∀ p answer store, d.session.fileOpen = true → d.session.openMode = .r → d.session.curPath = some p →
        d.store.stat p = (answer, store) →
          (answer = .ioError → leaves { d with store := store } 192) ∧
          (answer = .secError → leaves { d with store := store } 193) ∧
          (answer = .missing ∨ answer = .dir → leaves { d with store := store } 131) ∧
          (∀ len, answer = .file len →
            leaves
              { d with
                store := (store.readAll p).2
                session := (match (store.readAll p).1 with
                  | .ok bytes => { d.session with sendBuffer := bytes, sendPos := 0 }
                  | .ioError => d.session
                  | .secError => d.session) }
              (match (store.readAll p).1 with | .ok _ => 0 | .ioError => 192 | .secError => 193)))

/-- WRITE<N>, its checks in their order (R243): the grammar (128), no handle (135), a handle in mode R (131); otherwise the
device starts to accumulate N bytes, and for N = 0 it commits an empty buffer at once (R245). -/
def Obligations.WriteAnnounces : Prop :=
  ∀ (s : State) (e : EndpointId) (x : Endpoint) (d : CommandDevice) (arg : Bytes) (tail : Tail), AwaitsCommand s e x d →
    0x17 ∉ arg → 5 + arg.length + tail.bytes.length ≤ 4096 →
      let leaves := Leaves (.cmdWrite e arg tail) s e x (5 + arg.length + tail.bytes.length)
      (parseDigits arg = none → leaves d 128) ∧
      ∀ n, parseDigits arg = some n →
        (d.session.fileOpen = false → leaves d 135) ∧
        (d.session.fileOpen = true → d.session.openMode = .r → leaves d 131) ∧
        (d.session.fileOpen = true → d.session.openMode ≠ .r → 0 < n →
          leaves
            { d with
              session := { d.session with
                writeBuffer := [], writeBufferUsage := 0, writeTarget := n, accumulating := true } } 0) ∧
        (∀ p answer store, d.session.fileOpen = true → d.session.openMode ≠ .r → n = 0 → d.session.curPath = some p →
          (if d.session.openMode = .w then d.store.writeAll p [] else d.store.append p []) = (answer, store) →
            leaves
              { d with
                store := store
                session := { d.session with
                  writeBuffer := [], writeBufferUsage := 0, writeTarget := 0, accumulating := false } }
              (match answer with | .ok => 0 | .ioError => 192 | .secError => 193))

/-- Data accumulation (R244): a payload that does not complete the announced bytes is appended and leaves the status; one
that does is taken up to the announced length, the rest of it being dropped, and the store is written once with all bytes,
after which the device decodes commands again (R245). -/
def Obligations.DataAccumulates : Prop :=
  ∀ (s : State) (e : EndpointId) (x : Endpoint) (d : CommandDevice) (data : Bytes) (p : Path),
    Live s e x → x.device = .command d → d.session.accumulating = true → d.session.Inv → d.session.curPath = some p →
    data.length ≤ 4096 →
      (d.session.writeBuffer.length + data.length < d.session.writeTarget →
        Leaves (.writeout e data) s e x data.length
          { d with
            session := { d.session with
              writeBuffer := d.session.writeBuffer ++ data
              writeBufferUsage := d.session.writeBufferUsage + data.length } } x.statusCode) ∧
      (d.session.writeTarget ≤ d.session.writeBuffer.length + data.length →
        let whole := (d.session.writeBuffer ++ data).take d.session.writeTarget
        ∀ answer store,
          (if d.session.openMode = .w then d.store.writeAll p whole else d.store.append p whole) = (answer, store) →
            Leaves (.writeout e data) s e x data.length
              { d with
                store := store
                session := { d.session with writeBuffer := [], writeBufferUsage := 0, accumulating := false } }
              (match answer with | .ok => 0 | .ioError => 192 | .secError => 193))

/-- A multi-block WRITE (R243 to R245): WRITE<N> and two payloads that together have N bytes complete, and end with the file
replaced, in one store call, by exactly their concatenation. -/
def Obligations.MultiBlockWrite : Prop :=
  ∀ (s : State) (e : EndpointId) (x : Endpoint) (d : CommandDevice) (a b : Bytes) (p : Path) (answer : SaveResult)
    (store : Store), AwaitsCommand s e x d → d.session.fileOpen = true → d.session.openMode = .w →
    d.session.curPath = some p → 5 + (decimal (a.length + b.length)).length ≤ 4096 → a.length ≤ 4096 → b.length ≤ 4096 →
    0 < b.length → d.store.writeAll p (a ++ b) = (answer, store) →
      ∃ t u v y d', exec (.cmdWrite e (decimal (a.length + b.length)) .absent) s = .next t ∧
        exec (.writeout e a) t = .next u ∧ exec (.writeout e b) u = .next v ∧
        v.endpoint? e = some y ∧ y.device = .command d' ∧ d'.store = store ∧ d'.session.accumulating = false ∧
        y.statusCode = (match answer with | .ok => 0 | .ioError => 192 | .secError => 193) ∧ LinkFrame s v

/-- DELETE, TOUCH, MKDIR and MKFILE (R247 to R250): no path (135), a read-only store (132), for the first two what `stat`
answers (192, 193, 129), and then the store's answer to the change (0, 1, 192, 193). -/
def Obligations.ChangeCommands : Prop :=
  ∀ (s : State) (e : EndpointId) (x : Endpoint) (d : CommandDevice) (tail : Tail), AwaitsCommand s e x d →
    let status := fun r : ChangeResult => match r with | .ok => (0 : Int) | .failed => 1 | .ioError => 192 | .secError => 193
    (∀ (i : Instr) (n : Nat) (change : Path → Store → ChangeResult × Store),
      (i = .cmdDelete e tail ∧ n = 6 + tail.bytes.length ∧ change = Store.delete) ∨
      (i = .cmdTouch e tail ∧ n = 5 + tail.bytes.length ∧ change = Store.touch) → n ≤ 4096 →
        (d.session.curPath = none → Leaves i s e x n d 135) ∧
        (∀ p, d.session.curPath = some p →
          (d.store.readOnly = true → Leaves i s e x n d 132) ∧
          (∀ answer store, d.store.readOnly = false → d.store.stat p = (answer, store) →
            (answer = .ioError → Leaves i s e x n { d with store := store } 192) ∧
            (answer = .secError → Leaves i s e x n { d with store := store } 193) ∧
            (answer = .missing → Leaves i s e x n { d with store := store } 129) ∧
            (answer = .dir ∨ (∃ len, answer = .file len) → ∀ r store', change p store = (r, store') →
              Leaves i s e x n { d with store := store' } (status r))))) ∧
    (∀ (i : Instr) (n : Nat) (change : Path → Store → ChangeResult × Store),
      (i = .cmdMkdir e tail ∧ n = 5 + tail.bytes.length ∧ change = Store.mkdir) ∨
      (i = .cmdMkfile e tail ∧ n = 6 + tail.bytes.length ∧ change = Store.mkfile) → n ≤ 4096 →
        (d.session.curPath = none → Leaves i s e x n d 135) ∧
        (∀ p, d.session.curPath = some p →
          (d.store.readOnly = true → Leaves i s e x n d 132) ∧
          (d.store.readOnly = false → ∀ r store', change p d.store = (r, store') →
            Leaves i s e x n { d with store := store' } (status r))))

/-- LISTFILES and GETLEN (R251, R252): no path (135), then what `stat` answers (192, 193, 129, or 134 and 133 for the wrong
kind), and otherwise the listing or the length in decimal is staged, with 0x17 after it. -/
def Obligations.QueryCommands : Prop :=
  ∀ (s : State) (e : EndpointId) (x : Endpoint) (d : CommandDevice) (tail : Tail), AwaitsCommand s e x d →
    (∀ (i : Instr) (n : Nat),
      (i = .cmdListfiles e tail ∧ n = 9 + tail.bytes.length) ∨ (i = .cmdGetlen e tail ∧ n = 6 + tail.bytes.length) →
      n ≤ 4096 →
        (d.session.curPath = none → Leaves i s e x n d 135) ∧
        (∀ p answer store, d.session.curPath = some p → d.store.stat p = (answer, store) →
          (answer = .ioError → Leaves i s e x n { d with store := store } 192) ∧
          (answer = .secError → Leaves i s e x n { d with store := store } 193) ∧
          (answer = .missing → Leaves i s e x n { d with store := store } 129))) ∧
    (∀ p store, d.session.curPath = some p → 9 + tail.bytes.length ≤ 4096 →
      let leaves := Leaves (.cmdListfiles e tail) s e x (9 + tail.bytes.length)
      (∀ len, d.store.stat p = (.file len, store) → leaves { d with store := store } 134) ∧
      (d.store.stat p = (.dir, store) →
        leaves
          { d with
            store := (store.list p).2
            session := (match (store.list p).1 with
              | .ok bytes => { d.session with sendBuffer := bytes ++ [0x17], sendPos := 0 }
              | .ioError => d.session
              | .secError => d.session) }
          (match (store.list p).1 with | .ok _ => 0 | .ioError => 192 | .secError => 193))) ∧
    (∀ p store, d.session.curPath = some p → 6 + tail.bytes.length ≤ 4096 →
      let leaves := Leaves (.cmdGetlen e tail) s e x (6 + tail.bytes.length)
      (d.store.stat p = (.dir, store) → leaves { d with store := store } 133) ∧
      (∀ len, d.store.stat p = (.file len, store) →
        leaves
          { d with
            store := store, session := { d.session with sendBuffer := decimal len ++ [0x17], sendPos := 0 } } 0))

/-- An illegal command (R253, R232, R109 (3)): a payload whose text equals none of the twelve plain keywords and begins with
none of the other four sets status 128 and changes nothing else in the device, presented as a command or as the data of a
WRITEOUT. -/
def Obligations.IllegalCommand : Prop :=
  ∀ (s : State) (e : EndpointId) (x : Endpoint) (d : CommandDevice) (payload : Bytes), AwaitsCommand s e x d →
    payload.length ≤ 4096 →
    (∀ k : Keyword, k ∉ [Keyword.openr, .openw, .opena, .write] → payload.takeWhile (· != 0x17) ≠ k.bytes) →
    (∀ k : Keyword, k ∈ [Keyword.openr, .openw, .opena, .write] → ¬ k.bytes <+: payload.takeWhile (· != 0x17)) →
      ∃ t, present (.cmd e payload) s = .next t ∧ exec (.writeout e payload) s = .next t ∧
        DeviceLeft s e x payload.length d 128 t

/-- Every step keeps the counters of every command session (R41, R42). -/
def Obligations.SessionInvKept : Prop := ∀ s t : State, SessionInv s → step s = .next t → SessionInv t

/-! ## Rules of the whole machine -/

/-- Faults are precise (R72, R292, R133 (5)): an operation that answers a fault has changed nothing but the response; the
fault carries the machine's id, and only the operation of its table row raises it (R290). -/
def Obligations.FaultIsolation : Prop :=
  ∀ (i : Instr) (s t : State) (f : FaultCode) (value id : Int), exec i s = .next t → t.response = .fault f value id →
    t = { s with response := .fault f value id } ∧ id = s.params.machineId ∧
    (f = .illegalAccess → i = .read value ∨ ∃ v, i = .write value v) ∧
    (f = .outOfMemory → i = .malloc value) ∧ (f = .invalidAllocSize → i = .malloc value) ∧
    (f = .invalidFree → i = .free value)

/-- The peripheral table is never changed while the machine runs (R24): a step from RUNNING leaves every slot occupied or
empty as it was, with the same card (a REGCARD, the blank card, the vendor card of the same id) and the same declared
numbers. What a card holds of its own may change. -/
def Obligations.TableFixedWhileRunning : Prop :=
  ∀ s t : State, s.runState = .running → step s = .next t → SameTable s t

/-- `machineId`, `memsize` and the other parameters are never written (R22). -/
def Obligations.ParametersConstant : Prop := ∀ s t : State, step s = .next t → t.params = s.params

/-- User RAM is written by WRITE and by nothing else (R23): every operation but WRITE and RESET leaves every byte as it was,
a WRITE changes at most the byte it addresses, and a step that runs no operation changes none (an idle step, log 1; a test's
load of a queue, log 20; a request that is no operation, R109). -/
def Obligations.UserRamWriters : Prop :=
  (∀ (i : Instr) (s t : State), exec i s = .next t →
    ((∀ a v, i ≠ .write a v) → i ≠ .reset → SameMemory s t) ∧
    (∀ a v, i = .write a v → ∀ b : Nat, (b : Int) ≠ a → t.userByte b = s.userByte b)) ∧
  (∀ s t : State, RunsNoOperation s → step s = .next t → SameMemory s t)

/-- What only its own operations write: the allocator's bits and table are written by MALLOC and FREE, and set back by RESET
(R27, R28); the run state by START, HALT and RESET (R26); `romMapping` by RESET (R25); a cable by ATTACH and DETACH (R31),
INSTALL and REMOVE apart, which make and destroy endpoints; the role flags and the baud rate by nothing (R30). A step that
runs no operation (log 1, log 20, R109) writes none of them and no slot, and an idle step nothing of an endpoint
without a background agent, a command device's and a reference endpoint's among them (R43, R80, R202). That a card's and a
device's own state do not change by themselves is the model's choice (log 27, log 28). -/
def Obligations.OnlyWriters : Prop :=
  (∀ (i : Instr) (s t : State), exec i s = .next t →
    ((∀ n, i ≠ .malloc n) → (∀ n, i ≠ .free n) → i ≠ .reset → t.allocBits = s.allocBits ∧ t.allocMap = s.allocMap) ∧
    (i ≠ .start → i ≠ .halt → i ≠ .reset → t.runState = s.runState) ∧
    (i ≠ .reset → t.romMapping = s.romMapping) ∧
    (∀ e x, (∀ k c m r n, i ≠ .install k c m r n) → (∀ k, i ≠ .remove k) → s.endpoint? e = some x →
      ∃ y, t.endpoint? e = some y ∧ y.isMaster = x.isMaster ∧ y.isSlave = x.isSlave ∧ y.baud = x.baud ∧
        ((∀ f g, i ≠ .attach f g) → (∀ f, i ≠ .detach f) → y.recipient = x.recipient))) ∧
  (∀ s t : State, RunsNoOperation s → step s = .next t →
    t.allocBits = s.allocBits ∧ t.allocMap = s.allocMap ∧ t.runState = s.runState ∧ t.romMapping = s.romMapping ∧
    t.peripheralTable = s.peripheralTable ∧
    (∀ e x, s.endpoint? e = some x →
      ∃ y, t.endpoint? e = some y ∧ y.isMaster = x.isMaster ∧ y.isSlave = x.isSlave ∧ y.baud = x.baud ∧
        y.recipient = x.recipient) ∧
    (s.pending = [] → ∀ e x, s.endpoint? e = some x →
      x.bgAgent = false ∨ (∀ id token, x.device ≠ .vendor id token) → t.endpoint? e = some x))

/-- Every step keeps user RAM in its canonical form and inside `0 .. memsize-1` (R22, R23), the declared sizes of every card
inside its windows (R8, R140), and no endpoint its own peer (R31, R182). -/
def Obligations.StructureInvKept : Prop :=
  ∀ s t : State, MemoryInv s ∧ TableInv s ∧ CableInv s → step s = .next t → MemoryInv t ∧ TableInv t ∧ CableInv t
end

