-- ==== Sys2Proof/Laws/State.lean ====
section
/-! SUPPORT. One lemma for each field of the state under each update, so that no proof unfolds a record update. -/

namespace Sys2Proof.Machine

/-! ## `respond` -/

@[simp] theorem State.respond_params (s : State) (r : Response) : (s.respond r).params = s.params := rfl
@[simp] theorem State.respond_userMemory (s : State) (r : Response) : (s.respond r).userMemory = s.userMemory := rfl
@[simp] theorem State.respond_peripheralTable (s : State) (r : Response) : (s.respond r).peripheralTable = s.peripheralTable := rfl
@[simp] theorem State.respond_romMapping (s : State) (r : Response) : (s.respond r).romMapping = s.romMapping := rfl
@[simp] theorem State.respond_runState (s : State) (r : Response) : (s.respond r).runState = s.runState := rfl
@[simp] theorem State.respond_allocBits (s : State) (r : Response) : (s.respond r).allocBits = s.allocBits := rfl
@[simp] theorem State.respond_allocMap (s : State) (r : Response) : (s.respond r).allocMap = s.allocMap := rfl
@[simp] theorem State.respond_endpoints (s : State) (r : Response) : (s.respond r).endpoints = s.endpoints := rfl
@[simp] theorem State.respond_now (s : State) (r : Response) : (s.respond r).now = s.now := rfl
@[simp] theorem State.respond_wire (s : State) (r : Response) : (s.respond r).wire = s.wire := rfl
@[simp] theorem State.respond_pending (s : State) (r : Response) : (s.respond r).pending = s.pending := rfl
@[simp] theorem State.respond_response (s : State) (r : Response) : (s.respond r).response = r := rfl
@[simp] theorem State.respond_periCalls (s : State) (r : Response) : (s.respond r).periCalls = s.periCalls := rfl
@[simp] theorem State.respond_agentScript (s : State) (r : Response) : (s.respond r).agentScript = s.agentScript := rfl
@[simp] theorem State.respond_clockReads (s : State) (r : Response) : (s.respond r).clockReads = s.clockReads := rfl
@[simp] theorem State.respond_slept (s : State) (r : Response) : (s.respond r).slept = s.slept := rfl
@[simp] theorem State.respond_resetCount (s : State) (r : Response) : (s.respond r).resetCount = s.resetCount := rfl
@[simp] theorem State.respond_installs (s : State) (r : Response) : (s.respond r).installs = s.installs := rfl

/-! ## `writeUser` -/

@[simp] theorem State.writeUser_params (s : State) (a : Nat) (v : Byte) : (s.writeUser a v).params = s.params := rfl
@[simp] theorem State.writeUser_userMemory (s : State) (a : Nat) (v : Byte) : (s.writeUser a v).userMemory = Memory.write s.userMemory a v := rfl
@[simp] theorem State.writeUser_peripheralTable (s : State) (a : Nat) (v : Byte) : (s.writeUser a v).peripheralTable = s.peripheralTable := rfl
@[simp] theorem State.writeUser_romMapping (s : State) (a : Nat) (v : Byte) : (s.writeUser a v).romMapping = s.romMapping := rfl
@[simp] theorem State.writeUser_runState (s : State) (a : Nat) (v : Byte) : (s.writeUser a v).runState = s.runState := rfl
@[simp] theorem State.writeUser_allocBits (s : State) (a : Nat) (v : Byte) : (s.writeUser a v).allocBits = s.allocBits := rfl
@[simp] theorem State.writeUser_allocMap (s : State) (a : Nat) (v : Byte) : (s.writeUser a v).allocMap = s.allocMap := rfl
@[simp] theorem State.writeUser_endpoints (s : State) (a : Nat) (v : Byte) : (s.writeUser a v).endpoints = s.endpoints := rfl
@[simp] theorem State.writeUser_now (s : State) (a : Nat) (v : Byte) : (s.writeUser a v).now = s.now := rfl
@[simp] theorem State.writeUser_wire (s : State) (a : Nat) (v : Byte) : (s.writeUser a v).wire = s.wire := rfl
@[simp] theorem State.writeUser_pending (s : State) (a : Nat) (v : Byte) : (s.writeUser a v).pending = s.pending := rfl
@[simp] theorem State.writeUser_response (s : State) (a : Nat) (v : Byte) : (s.writeUser a v).response = s.response := rfl
@[simp] theorem State.writeUser_periCalls (s : State) (a : Nat) (v : Byte) : (s.writeUser a v).periCalls = s.periCalls := rfl
@[simp] theorem State.writeUser_agentScript (s : State) (a : Nat) (v : Byte) : (s.writeUser a v).agentScript = s.agentScript := rfl
@[simp] theorem State.writeUser_clockReads (s : State) (a : Nat) (v : Byte) : (s.writeUser a v).clockReads = s.clockReads := rfl
@[simp] theorem State.writeUser_slept (s : State) (a : Nat) (v : Byte) : (s.writeUser a v).slept = s.slept := rfl
@[simp] theorem State.writeUser_resetCount (s : State) (a : Nat) (v : Byte) : (s.writeUser a v).resetCount = s.resetCount := rfl
@[simp] theorem State.writeUser_installs (s : State) (a : Nat) (v : Byte) : (s.writeUser a v).installs = s.installs := rfl

/-! ## `modifyEndpoint` -/

@[simp] theorem State.modifyEndpoint_params (s : State) (e : EndpointId) (g : Endpoint → Endpoint) : (s.modifyEndpoint e g).params = s.params := rfl
@[simp] theorem State.modifyEndpoint_userMemory (s : State) (e : EndpointId) (g : Endpoint → Endpoint) : (s.modifyEndpoint e g).userMemory = s.userMemory := rfl
@[simp] theorem State.modifyEndpoint_peripheralTable (s : State) (e : EndpointId) (g : Endpoint → Endpoint) : (s.modifyEndpoint e g).peripheralTable = s.peripheralTable := rfl
@[simp] theorem State.modifyEndpoint_romMapping (s : State) (e : EndpointId) (g : Endpoint → Endpoint) : (s.modifyEndpoint e g).romMapping = s.romMapping := rfl
@[simp] theorem State.modifyEndpoint_runState (s : State) (e : EndpointId) (g : Endpoint → Endpoint) : (s.modifyEndpoint e g).runState = s.runState := rfl
@[simp] theorem State.modifyEndpoint_allocBits (s : State) (e : EndpointId) (g : Endpoint → Endpoint) : (s.modifyEndpoint e g).allocBits = s.allocBits := rfl
@[simp] theorem State.modifyEndpoint_allocMap (s : State) (e : EndpointId) (g : Endpoint → Endpoint) : (s.modifyEndpoint e g).allocMap = s.allocMap := rfl
@[simp] theorem State.modifyEndpoint_endpoints (s : State) (e : EndpointId) (g : Endpoint → Endpoint) : (s.modifyEndpoint e g).endpoints = s.endpoints.map (fun p => if p.1 = e then (p.1, g p.2) else p) := rfl
@[simp] theorem State.modifyEndpoint_now (s : State) (e : EndpointId) (g : Endpoint → Endpoint) : (s.modifyEndpoint e g).now = s.now := rfl
@[simp] theorem State.modifyEndpoint_wire (s : State) (e : EndpointId) (g : Endpoint → Endpoint) : (s.modifyEndpoint e g).wire = s.wire := rfl
@[simp] theorem State.modifyEndpoint_pending (s : State) (e : EndpointId) (g : Endpoint → Endpoint) : (s.modifyEndpoint e g).pending = s.pending := rfl
@[simp] theorem State.modifyEndpoint_response (s : State) (e : EndpointId) (g : Endpoint → Endpoint) : (s.modifyEndpoint e g).response = s.response := rfl
@[simp] theorem State.modifyEndpoint_periCalls (s : State) (e : EndpointId) (g : Endpoint → Endpoint) : (s.modifyEndpoint e g).periCalls = s.periCalls := rfl
@[simp] theorem State.modifyEndpoint_agentScript (s : State) (e : EndpointId) (g : Endpoint → Endpoint) : (s.modifyEndpoint e g).agentScript = s.agentScript := rfl
@[simp] theorem State.modifyEndpoint_clockReads (s : State) (e : EndpointId) (g : Endpoint → Endpoint) : (s.modifyEndpoint e g).clockReads = s.clockReads := rfl
@[simp] theorem State.modifyEndpoint_slept (s : State) (e : EndpointId) (g : Endpoint → Endpoint) : (s.modifyEndpoint e g).slept = s.slept := rfl
@[simp] theorem State.modifyEndpoint_resetCount (s : State) (e : EndpointId) (g : Endpoint → Endpoint) : (s.modifyEndpoint e g).resetCount = s.resetCount := rfl
@[simp] theorem State.modifyEndpoint_installs (s : State) (e : EndpointId) (g : Endpoint → Endpoint) : (s.modifyEndpoint e g).installs = s.installs := rfl

/-! ## `tick` -/

@[simp] theorem State.tick_params (s : State) : (s.tick).params = s.params := rfl
@[simp] theorem State.tick_userMemory (s : State) : (s.tick).userMemory = s.userMemory := rfl
@[simp] theorem State.tick_peripheralTable (s : State) : (s.tick).peripheralTable = s.peripheralTable := rfl
@[simp] theorem State.tick_romMapping (s : State) : (s.tick).romMapping = s.romMapping := rfl
@[simp] theorem State.tick_runState (s : State) : (s.tick).runState = s.runState := rfl
@[simp] theorem State.tick_allocBits (s : State) : (s.tick).allocBits = s.allocBits := rfl
@[simp] theorem State.tick_allocMap (s : State) : (s.tick).allocMap = s.allocMap := rfl
@[simp] theorem State.tick_endpoints (s : State) : (s.tick).endpoints = s.endpoints := rfl
@[simp] theorem State.tick_now (s : State) : (s.tick).now = s.now + Config.clockAdvance s.clockReads := rfl
@[simp] theorem State.tick_wire (s : State) : (s.tick).wire = s.wire := rfl
@[simp] theorem State.tick_pending (s : State) : (s.tick).pending = s.pending := rfl
@[simp] theorem State.tick_response (s : State) : (s.tick).response = s.response := rfl
@[simp] theorem State.tick_periCalls (s : State) : (s.tick).periCalls = s.periCalls := rfl
@[simp] theorem State.tick_agentScript (s : State) : (s.tick).agentScript = s.agentScript := rfl
@[simp] theorem State.tick_clockReads (s : State) : (s.tick).clockReads = s.clockReads + 1 := rfl
@[simp] theorem State.tick_slept (s : State) : (s.tick).slept = s.slept := rfl
@[simp] theorem State.tick_resetCount (s : State) : (s.tick).resetCount = s.resetCount := rfl
@[simp] theorem State.tick_installs (s : State) : (s.tick).installs = s.installs := rfl

/-! ## `setSlot` -/

@[simp] theorem State.setSlot_params (s : State) (k : Slot) (c : Option Entry) : (s.setSlot k c).params = s.params := rfl
@[simp] theorem State.setSlot_userMemory (s : State) (k : Slot) (c : Option Entry) : (s.setSlot k c).userMemory = s.userMemory := rfl
@[simp] theorem State.setSlot_peripheralTable (s : State) (k : Slot) (c : Option Entry) : (s.setSlot k c).peripheralTable = s.peripheralTable.set k.val c := rfl
@[simp] theorem State.setSlot_romMapping (s : State) (k : Slot) (c : Option Entry) : (s.setSlot k c).romMapping = s.romMapping := rfl
@[simp] theorem State.setSlot_runState (s : State) (k : Slot) (c : Option Entry) : (s.setSlot k c).runState = s.runState := rfl
@[simp] theorem State.setSlot_allocBits (s : State) (k : Slot) (c : Option Entry) : (s.setSlot k c).allocBits = s.allocBits := rfl
@[simp] theorem State.setSlot_allocMap (s : State) (k : Slot) (c : Option Entry) : (s.setSlot k c).allocMap = s.allocMap := rfl
@[simp] theorem State.setSlot_endpoints (s : State) (k : Slot) (c : Option Entry) : (s.setSlot k c).endpoints = s.endpoints := rfl
@[simp] theorem State.setSlot_now (s : State) (k : Slot) (c : Option Entry) : (s.setSlot k c).now = s.now := rfl
@[simp] theorem State.setSlot_wire (s : State) (k : Slot) (c : Option Entry) : (s.setSlot k c).wire = s.wire := rfl
@[simp] theorem State.setSlot_pending (s : State) (k : Slot) (c : Option Entry) : (s.setSlot k c).pending = s.pending := rfl
@[simp] theorem State.setSlot_response (s : State) (k : Slot) (c : Option Entry) : (s.setSlot k c).response = s.response := rfl
@[simp] theorem State.setSlot_periCalls (s : State) (k : Slot) (c : Option Entry) : (s.setSlot k c).periCalls = s.periCalls := rfl
@[simp] theorem State.setSlot_agentScript (s : State) (k : Slot) (c : Option Entry) : (s.setSlot k c).agentScript = s.agentScript := rfl
@[simp] theorem State.setSlot_clockReads (s : State) (k : Slot) (c : Option Entry) : (s.setSlot k c).clockReads = s.clockReads := rfl
@[simp] theorem State.setSlot_slept (s : State) (k : Slot) (c : Option Entry) : (s.setSlot k c).slept = s.slept := rfl
@[simp] theorem State.setSlot_resetCount (s : State) (k : Slot) (c : Option Entry) : (s.setSlot k c).resetCount = s.resetCount := rfl
@[simp] theorem State.setSlot_installs (s : State) (k : Slot) (c : Option Entry) : (s.setSlot k c).installs = s.installs := rfl

/-! ## `note` -/

@[simp] theorem State.note_params (s : State) (c : PeriCall) : (s.note c).params = s.params := rfl
@[simp] theorem State.note_userMemory (s : State) (c : PeriCall) : (s.note c).userMemory = s.userMemory := rfl
@[simp] theorem State.note_peripheralTable (s : State) (c : PeriCall) : (s.note c).peripheralTable = s.peripheralTable := rfl
@[simp] theorem State.note_romMapping (s : State) (c : PeriCall) : (s.note c).romMapping = s.romMapping := rfl
@[simp] theorem State.note_runState (s : State) (c : PeriCall) : (s.note c).runState = s.runState := rfl
@[simp] theorem State.note_allocBits (s : State) (c : PeriCall) : (s.note c).allocBits = s.allocBits := rfl
@[simp] theorem State.note_allocMap (s : State) (c : PeriCall) : (s.note c).allocMap = s.allocMap := rfl
@[simp] theorem State.note_endpoints (s : State) (c : PeriCall) : (s.note c).endpoints = s.endpoints := rfl
@[simp] theorem State.note_now (s : State) (c : PeriCall) : (s.note c).now = s.now := rfl
@[simp] theorem State.note_wire (s : State) (c : PeriCall) : (s.note c).wire = s.wire := rfl
@[simp] theorem State.note_pending (s : State) (c : PeriCall) : (s.note c).pending = s.pending := rfl
@[simp] theorem State.note_response (s : State) (c : PeriCall) : (s.note c).response = s.response := rfl
@[simp] theorem State.note_periCalls (s : State) (c : PeriCall) : (s.note c).periCalls = c :: s.periCalls := rfl
@[simp] theorem State.note_agentScript (s : State) (c : PeriCall) : (s.note c).agentScript = s.agentScript := rfl
@[simp] theorem State.note_clockReads (s : State) (c : PeriCall) : (s.note c).clockReads = s.clockReads := rfl
@[simp] theorem State.note_slept (s : State) (c : PeriCall) : (s.note c).slept = s.slept := rfl
@[simp] theorem State.note_resetCount (s : State) (c : PeriCall) : (s.note c).resetCount = s.resetCount := rfl
@[simp] theorem State.note_installs (s : State) (c : PeriCall) : (s.note c).installs = s.installs := rfl

/-! ## `raise` -/

@[simp] theorem State.raise_params (s : State) (f : FaultCode) (v : Int) : (s.raise f v).params = s.params := rfl
@[simp] theorem State.raise_userMemory (s : State) (f : FaultCode) (v : Int) : (s.raise f v).userMemory = s.userMemory := rfl
@[simp] theorem State.raise_peripheralTable (s : State) (f : FaultCode) (v : Int) : (s.raise f v).peripheralTable = s.peripheralTable := rfl
@[simp] theorem State.raise_romMapping (s : State) (f : FaultCode) (v : Int) : (s.raise f v).romMapping = s.romMapping := rfl
@[simp] theorem State.raise_runState (s : State) (f : FaultCode) (v : Int) : (s.raise f v).runState = s.runState := rfl
@[simp] theorem State.raise_allocBits (s : State) (f : FaultCode) (v : Int) : (s.raise f v).allocBits = s.allocBits := rfl
@[simp] theorem State.raise_allocMap (s : State) (f : FaultCode) (v : Int) : (s.raise f v).allocMap = s.allocMap := rfl
@[simp] theorem State.raise_endpoints (s : State) (f : FaultCode) (v : Int) : (s.raise f v).endpoints = s.endpoints := rfl
@[simp] theorem State.raise_now (s : State) (f : FaultCode) (v : Int) : (s.raise f v).now = s.now := rfl
@[simp] theorem State.raise_wire (s : State) (f : FaultCode) (v : Int) : (s.raise f v).wire = s.wire := rfl
@[simp] theorem State.raise_pending (s : State) (f : FaultCode) (v : Int) : (s.raise f v).pending = s.pending := rfl
@[simp] theorem State.raise_response (s : State) (f : FaultCode) (v : Int) : (s.raise f v).response = .fault f v s.params.machineId := rfl
@[simp] theorem State.raise_periCalls (s : State) (f : FaultCode) (v : Int) : (s.raise f v).periCalls = s.periCalls := rfl
@[simp] theorem State.raise_agentScript (s : State) (f : FaultCode) (v : Int) : (s.raise f v).agentScript = s.agentScript := rfl
@[simp] theorem State.raise_clockReads (s : State) (f : FaultCode) (v : Int) : (s.raise f v).clockReads = s.clockReads := rfl
@[simp] theorem State.raise_slept (s : State) (f : FaultCode) (v : Int) : (s.raise f v).slept = s.slept := rfl
@[simp] theorem State.raise_resetCount (s : State) (f : FaultCode) (v : Int) : (s.raise f v).resetCount = s.resetCount := rfl
@[simp] theorem State.raise_installs (s : State) (f : FaultCode) (v : Int) : (s.raise f v).installs = s.installs := rfl

/-! ## `putDevice` -/

@[simp] theorem State.putDevice_params (s : State) (e : EndpointId) (d : Device) : (s.putDevice e d).params = s.params := rfl
@[simp] theorem State.putDevice_userMemory (s : State) (e : EndpointId) (d : Device) : (s.putDevice e d).userMemory = s.userMemory := rfl
@[simp] theorem State.putDevice_peripheralTable (s : State) (e : EndpointId) (d : Device) : (s.putDevice e d).peripheralTable = s.peripheralTable := rfl
@[simp] theorem State.putDevice_romMapping (s : State) (e : EndpointId) (d : Device) : (s.putDevice e d).romMapping = s.romMapping := rfl
@[simp] theorem State.putDevice_runState (s : State) (e : EndpointId) (d : Device) : (s.putDevice e d).runState = s.runState := rfl
@[simp] theorem State.putDevice_allocBits (s : State) (e : EndpointId) (d : Device) : (s.putDevice e d).allocBits = s.allocBits := rfl
@[simp] theorem State.putDevice_allocMap (s : State) (e : EndpointId) (d : Device) : (s.putDevice e d).allocMap = s.allocMap := rfl
@[simp] theorem State.putDevice_now (s : State) (e : EndpointId) (d : Device) : (s.putDevice e d).now = s.now := rfl
@[simp] theorem State.putDevice_wire (s : State) (e : EndpointId) (d : Device) : (s.putDevice e d).wire = s.wire := rfl
@[simp] theorem State.putDevice_pending (s : State) (e : EndpointId) (d : Device) : (s.putDevice e d).pending = s.pending := rfl
@[simp] theorem State.putDevice_response (s : State) (e : EndpointId) (d : Device) : (s.putDevice e d).response = s.response := rfl
@[simp] theorem State.putDevice_periCalls (s : State) (e : EndpointId) (d : Device) : (s.putDevice e d).periCalls = s.periCalls := rfl
@[simp] theorem State.putDevice_agentScript (s : State) (e : EndpointId) (d : Device) : (s.putDevice e d).agentScript = s.agentScript := rfl
@[simp] theorem State.putDevice_clockReads (s : State) (e : EndpointId) (d : Device) : (s.putDevice e d).clockReads = s.clockReads := rfl
@[simp] theorem State.putDevice_slept (s : State) (e : EndpointId) (d : Device) : (s.putDevice e d).slept = s.slept := rfl
@[simp] theorem State.putDevice_resetCount (s : State) (e : EndpointId) (d : Device) : (s.putDevice e d).resetCount = s.resetCount := rfl
@[simp] theorem State.putDevice_installs (s : State) (e : EndpointId) (d : Device) : (s.putDevice e d).installs = s.installs := rfl

/-! ## `putSendmode` -/

@[simp] theorem State.putSendmode_params (s : State) (e : EndpointId) (b : Bool) : (s.putSendmode e b).params = s.params := rfl
@[simp] theorem State.putSendmode_userMemory (s : State) (e : EndpointId) (b : Bool) : (s.putSendmode e b).userMemory = s.userMemory := rfl
@[simp] theorem State.putSendmode_peripheralTable (s : State) (e : EndpointId) (b : Bool) : (s.putSendmode e b).peripheralTable = s.peripheralTable := rfl
@[simp] theorem State.putSendmode_romMapping (s : State) (e : EndpointId) (b : Bool) : (s.putSendmode e b).romMapping = s.romMapping := rfl
@[simp] theorem State.putSendmode_runState (s : State) (e : EndpointId) (b : Bool) : (s.putSendmode e b).runState = s.runState := rfl
@[simp] theorem State.putSendmode_allocBits (s : State) (e : EndpointId) (b : Bool) : (s.putSendmode e b).allocBits = s.allocBits := rfl
@[simp] theorem State.putSendmode_allocMap (s : State) (e : EndpointId) (b : Bool) : (s.putSendmode e b).allocMap = s.allocMap := rfl
@[simp] theorem State.putSendmode_now (s : State) (e : EndpointId) (b : Bool) : (s.putSendmode e b).now = s.now := rfl
@[simp] theorem State.putSendmode_wire (s : State) (e : EndpointId) (b : Bool) : (s.putSendmode e b).wire = s.wire := rfl
@[simp] theorem State.putSendmode_pending (s : State) (e : EndpointId) (b : Bool) : (s.putSendmode e b).pending = s.pending := rfl
@[simp] theorem State.putSendmode_response (s : State) (e : EndpointId) (b : Bool) : (s.putSendmode e b).response = s.response := rfl
@[simp] theorem State.putSendmode_periCalls (s : State) (e : EndpointId) (b : Bool) : (s.putSendmode e b).periCalls = s.periCalls := rfl
@[simp] theorem State.putSendmode_agentScript (s : State) (e : EndpointId) (b : Bool) : (s.putSendmode e b).agentScript = s.agentScript := rfl
@[simp] theorem State.putSendmode_clockReads (s : State) (e : EndpointId) (b : Bool) : (s.putSendmode e b).clockReads = s.clockReads := rfl
@[simp] theorem State.putSendmode_slept (s : State) (e : EndpointId) (b : Bool) : (s.putSendmode e b).slept = s.slept := rfl
@[simp] theorem State.putSendmode_resetCount (s : State) (e : EndpointId) (b : Bool) : (s.putSendmode e b).resetCount = s.resetCount := rfl
@[simp] theorem State.putSendmode_installs (s : State) (e : EndpointId) (b : Bool) : (s.putSendmode e b).installs = s.installs := rfl

/-! ## `setCard` -/

@[simp] theorem State.setCard_params (s : State) (k : Slot) (ent : Entry) (c : Card) : (s.setCard k ent c).params = s.params := rfl
@[simp] theorem State.setCard_userMemory (s : State) (k : Slot) (ent : Entry) (c : Card) : (s.setCard k ent c).userMemory = s.userMemory := rfl
@[simp] theorem State.setCard_peripheralTable (s : State) (k : Slot) (ent : Entry) (c : Card) : (s.setCard k ent c).peripheralTable = s.peripheralTable.set k.val (some { ent with card := c }) := rfl
@[simp] theorem State.setCard_romMapping (s : State) (k : Slot) (ent : Entry) (c : Card) : (s.setCard k ent c).romMapping = s.romMapping := rfl
@[simp] theorem State.setCard_runState (s : State) (k : Slot) (ent : Entry) (c : Card) : (s.setCard k ent c).runState = s.runState := rfl
@[simp] theorem State.setCard_allocBits (s : State) (k : Slot) (ent : Entry) (c : Card) : (s.setCard k ent c).allocBits = s.allocBits := rfl
@[simp] theorem State.setCard_allocMap (s : State) (k : Slot) (ent : Entry) (c : Card) : (s.setCard k ent c).allocMap = s.allocMap := rfl
@[simp] theorem State.setCard_endpoints (s : State) (k : Slot) (ent : Entry) (c : Card) : (s.setCard k ent c).endpoints = s.endpoints := rfl
@[simp] theorem State.setCard_now (s : State) (k : Slot) (ent : Entry) (c : Card) : (s.setCard k ent c).now = s.now := rfl
@[simp] theorem State.setCard_wire (s : State) (k : Slot) (ent : Entry) (c : Card) : (s.setCard k ent c).wire = s.wire := rfl
@[simp] theorem State.setCard_pending (s : State) (k : Slot) (ent : Entry) (c : Card) : (s.setCard k ent c).pending = s.pending := rfl
@[simp] theorem State.setCard_response (s : State) (k : Slot) (ent : Entry) (c : Card) : (s.setCard k ent c).response = s.response := rfl
@[simp] theorem State.setCard_periCalls (s : State) (k : Slot) (ent : Entry) (c : Card) : (s.setCard k ent c).periCalls = s.periCalls := rfl
@[simp] theorem State.setCard_agentScript (s : State) (k : Slot) (ent : Entry) (c : Card) : (s.setCard k ent c).agentScript = s.agentScript := rfl
@[simp] theorem State.setCard_clockReads (s : State) (k : Slot) (ent : Entry) (c : Card) : (s.setCard k ent c).clockReads = s.clockReads := rfl
@[simp] theorem State.setCard_slept (s : State) (k : Slot) (ent : Entry) (c : Card) : (s.setCard k ent c).slept = s.slept := rfl
@[simp] theorem State.setCard_resetCount (s : State) (k : Slot) (ent : Entry) (c : Card) : (s.setCard k ent c).resetCount = s.resetCount := rfl
@[simp] theorem State.setCard_installs (s : State) (k : Slot) (ent : Entry) (c : Card) : (s.setCard k ent c).installs = s.installs := rfl

/-! ## `agentWrite` -/

@[simp] theorem State.agentWrite_params (s : State) (p : EndpointId × AgentWrite) : (s.agentWrite p).params = s.params := rfl
@[simp] theorem State.agentWrite_userMemory (s : State) (p : EndpointId × AgentWrite) : (s.agentWrite p).userMemory = s.userMemory := rfl
@[simp] theorem State.agentWrite_peripheralTable (s : State) (p : EndpointId × AgentWrite) : (s.agentWrite p).peripheralTable = s.peripheralTable := rfl
@[simp] theorem State.agentWrite_romMapping (s : State) (p : EndpointId × AgentWrite) : (s.agentWrite p).romMapping = s.romMapping := rfl
@[simp] theorem State.agentWrite_runState (s : State) (p : EndpointId × AgentWrite) : (s.agentWrite p).runState = s.runState := rfl
@[simp] theorem State.agentWrite_allocBits (s : State) (p : EndpointId × AgentWrite) : (s.agentWrite p).allocBits = s.allocBits := rfl
@[simp] theorem State.agentWrite_allocMap (s : State) (p : EndpointId × AgentWrite) : (s.agentWrite p).allocMap = s.allocMap := rfl
@[simp] theorem State.agentWrite_now (s : State) (p : EndpointId × AgentWrite) : (s.agentWrite p).now = s.now := rfl
@[simp] theorem State.agentWrite_wire (s : State) (p : EndpointId × AgentWrite) : (s.agentWrite p).wire = s.wire := rfl
@[simp] theorem State.agentWrite_pending (s : State) (p : EndpointId × AgentWrite) : (s.agentWrite p).pending = s.pending := rfl
@[simp] theorem State.agentWrite_response (s : State) (p : EndpointId × AgentWrite) : (s.agentWrite p).response = s.response := rfl
@[simp] theorem State.agentWrite_periCalls (s : State) (p : EndpointId × AgentWrite) : (s.agentWrite p).periCalls = s.periCalls := rfl
@[simp] theorem State.agentWrite_agentScript (s : State) (p : EndpointId × AgentWrite) : (s.agentWrite p).agentScript = s.agentScript := rfl
@[simp] theorem State.agentWrite_clockReads (s : State) (p : EndpointId × AgentWrite) : (s.agentWrite p).clockReads = s.clockReads := rfl
@[simp] theorem State.agentWrite_slept (s : State) (p : EndpointId × AgentWrite) : (s.agentWrite p).slept = s.slept := rfl
@[simp] theorem State.agentWrite_resetCount (s : State) (p : EndpointId × AgentWrite) : (s.agentWrite p).resetCount = s.resetCount := rfl
@[simp] theorem State.agentWrite_installs (s : State) (p : EndpointId × AgentWrite) : (s.agentWrite p).installs = s.installs := rfl

/-! ## `interleave` and the atomic accesses -/

/-- The agents' writes of one batch change endpoints only. -/
theorem State.foldl_agentWrite (batch : List (EndpointId × AgentWrite)) (s : State) :
    batch.foldl State.agentWrite s = { s with endpoints := (batch.foldl State.agentWrite s).endpoints } := by
  induction batch generalizing s with
  | nil => rfl
  | cons p rest ih =>
    rw [List.foldl_cons, ih]
    rfl

/-- A point for agents changes endpoints and takes one batch off the script. -/
theorem State.interleave_eq (s : State) :
    s.interleave = { s with endpoints := s.interleave.endpoints, agentScript := s.agentScript.tail } := by
  unfold State.interleave
  split
  · rename_i h
    rw [h]
    cases s
    simp_all
  · rename_i batch rest h
    rw [State.foldl_agentWrite, h]
    rfl

@[simp] theorem State.interleave_params (s : State) : s.interleave.params = s.params := by rw [State.interleave_eq]
@[simp] theorem State.interleave_userMemory (s : State) : s.interleave.userMemory = s.userMemory := by rw [State.interleave_eq]
@[simp] theorem State.interleave_peripheralTable (s : State) : s.interleave.peripheralTable = s.peripheralTable := by rw [State.interleave_eq]
@[simp] theorem State.interleave_romMapping (s : State) : s.interleave.romMapping = s.romMapping := by rw [State.interleave_eq]
@[simp] theorem State.interleave_runState (s : State) : s.interleave.runState = s.runState := by rw [State.interleave_eq]
@[simp] theorem State.interleave_allocBits (s : State) : s.interleave.allocBits = s.allocBits := by rw [State.interleave_eq]
@[simp] theorem State.interleave_allocMap (s : State) : s.interleave.allocMap = s.allocMap := by rw [State.interleave_eq]
@[simp] theorem State.interleave_now (s : State) : s.interleave.now = s.now := by rw [State.interleave_eq]
@[simp] theorem State.interleave_wire (s : State) : s.interleave.wire = s.wire := by rw [State.interleave_eq]
@[simp] theorem State.interleave_pending (s : State) : s.interleave.pending = s.pending := by rw [State.interleave_eq]
@[simp] theorem State.interleave_response (s : State) : s.interleave.response = s.response := by rw [State.interleave_eq]
@[simp] theorem State.interleave_periCalls (s : State) : s.interleave.periCalls = s.periCalls := by rw [State.interleave_eq]
@[simp] theorem State.interleave_agentScript (s : State) : s.interleave.agentScript = s.agentScript.tail := by rw [State.interleave_eq]
@[simp] theorem State.interleave_clockReads (s : State) : s.interleave.clockReads = s.clockReads := by rw [State.interleave_eq]
@[simp] theorem State.interleave_slept (s : State) : s.interleave.slept = s.slept := by rw [State.interleave_eq]
@[simp] theorem State.interleave_resetCount (s : State) : s.interleave.resetCount = s.resetCount := by rw [State.interleave_eq]
@[simp] theorem State.interleave_installs (s : State) : s.interleave.installs = s.installs := by rw [State.interleave_eq]

/-- With no agent writes to come a point for agents changes nothing. -/
@[simp] theorem State.interleave_of_quiet {s : State} (h : s.agentScript = []) : s.interleave = s := by
  unfold State.interleave
  rw [h]

/-! ## `putBusy` -/

@[simp] theorem State.putBusy_params (s : State) (e : EndpointId) (b : Bool) : (s.putBusy e b).params = s.params := by simp [State.putBusy]
@[simp] theorem State.putBusy_userMemory (s : State) (e : EndpointId) (b : Bool) : (s.putBusy e b).userMemory = s.userMemory := by simp [State.putBusy]
@[simp] theorem State.putBusy_peripheralTable (s : State) (e : EndpointId) (b : Bool) : (s.putBusy e b).peripheralTable = s.peripheralTable := by simp [State.putBusy]
@[simp] theorem State.putBusy_romMapping (s : State) (e : EndpointId) (b : Bool) : (s.putBusy e b).romMapping = s.romMapping := by simp [State.putBusy]
@[simp] theorem State.putBusy_runState (s : State) (e : EndpointId) (b : Bool) : (s.putBusy e b).runState = s.runState := by simp [State.putBusy]
@[simp] theorem State.putBusy_allocBits (s : State) (e : EndpointId) (b : Bool) : (s.putBusy e b).allocBits = s.allocBits := by simp [State.putBusy]
@[simp] theorem State.putBusy_allocMap (s : State) (e : EndpointId) (b : Bool) : (s.putBusy e b).allocMap = s.allocMap := by simp [State.putBusy]
@[simp] theorem State.putBusy_now (s : State) (e : EndpointId) (b : Bool) : (s.putBusy e b).now = s.now := by simp [State.putBusy]
@[simp] theorem State.putBusy_wire (s : State) (e : EndpointId) (b : Bool) : (s.putBusy e b).wire = s.wire := by simp [State.putBusy]
@[simp] theorem State.putBusy_pending (s : State) (e : EndpointId) (b : Bool) : (s.putBusy e b).pending = s.pending := by simp [State.putBusy]
@[simp] theorem State.putBusy_response (s : State) (e : EndpointId) (b : Bool) : (s.putBusy e b).response = s.response := by simp [State.putBusy]
@[simp] theorem State.putBusy_periCalls (s : State) (e : EndpointId) (b : Bool) : (s.putBusy e b).periCalls = s.periCalls := by simp [State.putBusy]
@[simp] theorem State.putBusy_agentScript (s : State) (e : EndpointId) (b : Bool) : (s.putBusy e b).agentScript = s.agentScript.tail := by simp [State.putBusy]
@[simp] theorem State.putBusy_clockReads (s : State) (e : EndpointId) (b : Bool) : (s.putBusy e b).clockReads = s.clockReads := by simp [State.putBusy]
@[simp] theorem State.putBusy_slept (s : State) (e : EndpointId) (b : Bool) : (s.putBusy e b).slept = s.slept := by simp [State.putBusy]
@[simp] theorem State.putBusy_resetCount (s : State) (e : EndpointId) (b : Bool) : (s.putBusy e b).resetCount = s.resetCount := by simp [State.putBusy]
@[simp] theorem State.putBusy_installs (s : State) (e : EndpointId) (b : Bool) : (s.putBusy e b).installs = s.installs := by simp [State.putBusy]

/-! ## `putReady` -/

@[simp] theorem State.putReady_params (s : State) (e : EndpointId) (b : Bool) : (s.putReady e b).params = s.params := by simp [State.putReady]
@[simp] theorem State.putReady_userMemory (s : State) (e : EndpointId) (b : Bool) : (s.putReady e b).userMemory = s.userMemory := by simp [State.putReady]
@[simp] theorem State.putReady_peripheralTable (s : State) (e : EndpointId) (b : Bool) : (s.putReady e b).peripheralTable = s.peripheralTable := by simp [State.putReady]
@[simp] theorem State.putReady_romMapping (s : State) (e : EndpointId) (b : Bool) : (s.putReady e b).romMapping = s.romMapping := by simp [State.putReady]
@[simp] theorem State.putReady_runState (s : State) (e : EndpointId) (b : Bool) : (s.putReady e b).runState = s.runState := by simp [State.putReady]
@[simp] theorem State.putReady_allocBits (s : State) (e : EndpointId) (b : Bool) : (s.putReady e b).allocBits = s.allocBits := by simp [State.putReady]
@[simp] theorem State.putReady_allocMap (s : State) (e : EndpointId) (b : Bool) : (s.putReady e b).allocMap = s.allocMap := by simp [State.putReady]
@[simp] theorem State.putReady_now (s : State) (e : EndpointId) (b : Bool) : (s.putReady e b).now = s.now := by simp [State.putReady]
@[simp] theorem State.putReady_wire (s : State) (e : EndpointId) (b : Bool) : (s.putReady e b).wire = s.wire := by simp [State.putReady]
@[simp] theorem State.putReady_pending (s : State) (e : EndpointId) (b : Bool) : (s.putReady e b).pending = s.pending := by simp [State.putReady]
@[simp] theorem State.putReady_response (s : State) (e : EndpointId) (b : Bool) : (s.putReady e b).response = s.response := by simp [State.putReady]
@[simp] theorem State.putReady_periCalls (s : State) (e : EndpointId) (b : Bool) : (s.putReady e b).periCalls = s.periCalls := by simp [State.putReady]
@[simp] theorem State.putReady_agentScript (s : State) (e : EndpointId) (b : Bool) : (s.putReady e b).agentScript = s.agentScript.tail := by simp [State.putReady]
@[simp] theorem State.putReady_clockReads (s : State) (e : EndpointId) (b : Bool) : (s.putReady e b).clockReads = s.clockReads := by simp [State.putReady]
@[simp] theorem State.putReady_slept (s : State) (e : EndpointId) (b : Bool) : (s.putReady e b).slept = s.slept := by simp [State.putReady]
@[simp] theorem State.putReady_resetCount (s : State) (e : EndpointId) (b : Bool) : (s.putReady e b).resetCount = s.resetCount := by simp [State.putReady]
@[simp] theorem State.putReady_installs (s : State) (e : EndpointId) (b : Bool) : (s.putReady e b).installs = s.installs := by simp [State.putReady]

/-! ## `putStatus` -/

@[simp] theorem State.putStatus_params (s : State) (e : EndpointId) (c : Int) : (s.putStatus e c).params = s.params := by simp [State.putStatus]
@[simp] theorem State.putStatus_userMemory (s : State) (e : EndpointId) (c : Int) : (s.putStatus e c).userMemory = s.userMemory := by simp [State.putStatus]
@[simp] theorem State.putStatus_peripheralTable (s : State) (e : EndpointId) (c : Int) : (s.putStatus e c).peripheralTable = s.peripheralTable := by simp [State.putStatus]
@[simp] theorem State.putStatus_romMapping (s : State) (e : EndpointId) (c : Int) : (s.putStatus e c).romMapping = s.romMapping := by simp [State.putStatus]
@[simp] theorem State.putStatus_runState (s : State) (e : EndpointId) (c : Int) : (s.putStatus e c).runState = s.runState := by simp [State.putStatus]
@[simp] theorem State.putStatus_allocBits (s : State) (e : EndpointId) (c : Int) : (s.putStatus e c).allocBits = s.allocBits := by simp [State.putStatus]
@[simp] theorem State.putStatus_allocMap (s : State) (e : EndpointId) (c : Int) : (s.putStatus e c).allocMap = s.allocMap := by simp [State.putStatus]
@[simp] theorem State.putStatus_now (s : State) (e : EndpointId) (c : Int) : (s.putStatus e c).now = s.now := by simp [State.putStatus]
@[simp] theorem State.putStatus_wire (s : State) (e : EndpointId) (c : Int) : (s.putStatus e c).wire = s.wire := by simp [State.putStatus]
@[simp] theorem State.putStatus_pending (s : State) (e : EndpointId) (c : Int) : (s.putStatus e c).pending = s.pending := by simp [State.putStatus]
@[simp] theorem State.putStatus_response (s : State) (e : EndpointId) (c : Int) : (s.putStatus e c).response = s.response := by simp [State.putStatus]
@[simp] theorem State.putStatus_periCalls (s : State) (e : EndpointId) (c : Int) : (s.putStatus e c).periCalls = s.periCalls := by simp [State.putStatus]
@[simp] theorem State.putStatus_agentScript (s : State) (e : EndpointId) (c : Int) : (s.putStatus e c).agentScript = s.agentScript.tail := by simp [State.putStatus]
@[simp] theorem State.putStatus_clockReads (s : State) (e : EndpointId) (c : Int) : (s.putStatus e c).clockReads = s.clockReads := by simp [State.putStatus]
@[simp] theorem State.putStatus_slept (s : State) (e : EndpointId) (c : Int) : (s.putStatus e c).slept = s.slept := by simp [State.putStatus]
@[simp] theorem State.putStatus_resetCount (s : State) (e : EndpointId) (c : Int) : (s.putStatus e c).resetCount = s.resetCount := by simp [State.putStatus]
@[simp] theorem State.putStatus_installs (s : State) (e : EndpointId) (c : Int) : (s.putStatus e c).installs = s.installs := by simp [State.putStatus]

/-! ## `putBlockSize` -/

@[simp] theorem State.putBlockSize_params (s : State) (e : EndpointId) (v : BlockSize) : (s.putBlockSize e v).params = s.params := by simp [State.putBlockSize]
@[simp] theorem State.putBlockSize_userMemory (s : State) (e : EndpointId) (v : BlockSize) : (s.putBlockSize e v).userMemory = s.userMemory := by simp [State.putBlockSize]
@[simp] theorem State.putBlockSize_peripheralTable (s : State) (e : EndpointId) (v : BlockSize) : (s.putBlockSize e v).peripheralTable = s.peripheralTable := by simp [State.putBlockSize]
@[simp] theorem State.putBlockSize_romMapping (s : State) (e : EndpointId) (v : BlockSize) : (s.putBlockSize e v).romMapping = s.romMapping := by simp [State.putBlockSize]
@[simp] theorem State.putBlockSize_runState (s : State) (e : EndpointId) (v : BlockSize) : (s.putBlockSize e v).runState = s.runState := by simp [State.putBlockSize]
@[simp] theorem State.putBlockSize_allocBits (s : State) (e : EndpointId) (v : BlockSize) : (s.putBlockSize e v).allocBits = s.allocBits := by simp [State.putBlockSize]
@[simp] theorem State.putBlockSize_allocMap (s : State) (e : EndpointId) (v : BlockSize) : (s.putBlockSize e v).allocMap = s.allocMap := by simp [State.putBlockSize]
@[simp] theorem State.putBlockSize_now (s : State) (e : EndpointId) (v : BlockSize) : (s.putBlockSize e v).now = s.now := by simp [State.putBlockSize]
@[simp] theorem State.putBlockSize_wire (s : State) (e : EndpointId) (v : BlockSize) : (s.putBlockSize e v).wire = s.wire := by simp [State.putBlockSize]
@[simp] theorem State.putBlockSize_pending (s : State) (e : EndpointId) (v : BlockSize) : (s.putBlockSize e v).pending = s.pending := by simp [State.putBlockSize]
@[simp] theorem State.putBlockSize_response (s : State) (e : EndpointId) (v : BlockSize) : (s.putBlockSize e v).response = s.response := by simp [State.putBlockSize]
@[simp] theorem State.putBlockSize_periCalls (s : State) (e : EndpointId) (v : BlockSize) : (s.putBlockSize e v).periCalls = s.periCalls := by simp [State.putBlockSize]
@[simp] theorem State.putBlockSize_agentScript (s : State) (e : EndpointId) (v : BlockSize) : (s.putBlockSize e v).agentScript = s.agentScript.tail := by simp [State.putBlockSize]
@[simp] theorem State.putBlockSize_clockReads (s : State) (e : EndpointId) (v : BlockSize) : (s.putBlockSize e v).clockReads = s.clockReads := by simp [State.putBlockSize]
@[simp] theorem State.putBlockSize_slept (s : State) (e : EndpointId) (v : BlockSize) : (s.putBlockSize e v).slept = s.slept := by simp [State.putBlockSize]
@[simp] theorem State.putBlockSize_resetCount (s : State) (e : EndpointId) (v : BlockSize) : (s.putBlockSize e v).resetCount = s.resetCount := by simp [State.putBlockSize]
@[simp] theorem State.putBlockSize_installs (s : State) (e : EndpointId) (v : BlockSize) : (s.putBlockSize e v).installs = s.installs := by simp [State.putBlockSize]

end Sys2Proof.Machine
end

