-- ==== Sys2Proof/Laws/Ops.lean ====
section
/-! SUPPORT. What the shared operations of Machine/Ops.lean can do, each said once: sequencing, the run-state checks,
memory, endpoints, background agents, the peripheral table. -/

namespace Sys2Proof.Machine

/-! ## Sequencing -/

@[simp] theorem andThen_next {α β : Type} (a : α) (k : α → Res β) : andThen (.next a) k = k a := rfl
@[simp] theorem andThen_fault {α β : Type} (f : Fault) (k : α → Res β) : andThen (.fault f) k = .fault f := rfl
@[simp] theorem andThen_refused {α β : Type} (f : Refusal) (k : α → Res β) : andThen (.refused f) k = .refused f := rfl

/-- A sequence answers exactly when both parts do. -/
theorem andThen_eq_next {α β : Type} {r : Res α} {k : α → Res β} {b : β} :
    andThen r k = .next b ↔ ∃ a, r = .next a ∧ k a = .next b := by
  cases r <;> simp [andThen]

/-- An operation of the RUNNING state answers only there (R26). -/
theorem requireRunning_eq_next {s t : State} {r : Res State} :
    requireRunning s r = .next t ↔ s.runState = .running ∧ r = .next t := by
  unfold requireRunning
  cases s.runState <;> simp

/-- An operation of the HALTED state answers only there (R26). -/
theorem requireHalted_eq_next {s t : State} {r : Res State} :
    requireHalted s r = .next t ↔ s.runState = .halted ∧ r = .next t := by
  unfold requireHalted
  cases s.runState <;> simp

/-- An operation on an endpoint answers only when the endpoint exists (U12). -/
theorem withEndpoint_eq_next {α : Type} {s : State} {e : EndpointId} {k : Endpoint → Res α} {b : α} :
    withEndpoint s e k = .next b ↔ ∃ x, s.endpoint? e = some x ∧ k x = .next b := by
  unfold withEndpoint
  cases s.endpoint? e <;> simp

/-- An operation on an endpoint that exists. -/
theorem withEndpoint_some {α : Type} {s : State} {e : EndpointId} {x : Endpoint} (k : Endpoint → Res α)
    (h : s.endpoint? e = some x) : withEndpoint s e k = k x := by
  unfold withEndpoint
  rw [h]

/-! ## Memory -/

/-- A read after a write: the byte written at its address, everything else as before (R78). -/
theorem Memory.read_write (m : Memory) (a b : Nat) (v : Byte) :
    Memory.read (Memory.write m a v) b = if b = a then some v else Memory.read m b := by
  induction m with
  | nil => simp [Memory.write, Memory.read]
  | cons c rest ih =>
    obtain ⟨x, w⟩ := c
    unfold Memory.write
    split
    · rfl
    · split
      · subst_vars
        simp only [Memory.read]
        split <;> rfl
      · simp only [Memory.read, ih]
        split
        · rw [if_neg (by omega)]
        · rfl

/-- The addresses of a memory after a write. -/
theorem Memory.mem_write {m : Memory} {a : Nat} {v : Byte} {c : Host.Cell} (h : c ∈ Memory.write m a v) :
    c.1 = a ∨ c ∈ m := by
  induction m with
  | nil => simp_all [Memory.write]
  | cons d rest ih =>
    obtain ⟨x, w⟩ := d
    unfold Memory.write at h
    split at h
    · simp only [List.mem_cons] at h ⊢
      rcases h with h | h | h <;> simp_all
    · split at h
      · simp only [List.mem_cons] at h ⊢
        rcases h with h | h <;> simp_all
      · simp only [List.mem_cons] at h ⊢
        rcases h with h | h
        · simp_all
        · rcases ih h with h | h <;> simp_all

/-- Every write keeps the canonical form. -/
theorem Memory.wf_write {m : Memory} (h : Memory.wf m) (a : Nat) (v : Byte) : Memory.wf (Memory.write m a v) := by
  induction m with
  | nil => simp [Memory.write]
  | cons c rest ih =>
    obtain ⟨x, w⟩ := c
    rw [Memory.wf, List.pairwise_cons] at h
    unfold Memory.write
    split
    · rename_i hlt
      rw [Memory.wf, List.pairwise_cons, List.pairwise_cons]
      refine ⟨fun d hd => ?_, h⟩
      simp only [List.mem_cons] at hd
      rcases hd with rfl | hd
      · exact hlt
      · exact Nat.lt_trans hlt (h.1 d hd)
    · split
      · subst_vars
        rw [Memory.wf, List.pairwise_cons]
        exact h
      · rw [Memory.wf, List.pairwise_cons]
        refine ⟨fun d hd => ?_, ih h.2⟩
        rcases Memory.mem_write hd with rfl | hd
        · simp only
          omega
        · exact h.1 d hd

/-- Reset's memory has the canonical form. -/
theorem Memory.wf_nil : Memory.wf [] := List.Pairwise.nil

/-- `userMemory[a] <- byte` (R78, R133 (2)). -/
@[simp] theorem State.userByte_writeUser (s : State) (a b : Nat) (v : Byte) :
    (s.writeUser a v).userByte b = if b = a then v else s.userByte b := by
  simp only [State.userByte, State.writeUser_userMemory, Memory.read_write, State.writeUser_resetCount]
  split <;> rfl

/-- A byte of user RAM depends on the memory and on the number of resets only. -/
theorem State.userByte_congr {s t : State} (hm : t.userMemory = s.userMemory) (hr : t.resetCount = s.resetCount) (a : Nat) :
    t.userByte a = s.userByte a := by
  unfold State.userByte
  rw [hm, hr]

/-! ## Endpoints -/

/-- Looking up an endpoint after one was changed. -/
@[simp] theorem State.endpoint?_modifyEndpoint (s : State) (e f : EndpointId) (g : Endpoint → Endpoint) :
    (s.modifyEndpoint e g).endpoint? f = if f = e then (s.endpoint? f).map g else s.endpoint? f := by
  unfold State.endpoint?
  rw [State.modifyEndpoint_endpoints]
  induction s.endpoints with
  | nil => simp
  | cons p rest ih =>
    obtain ⟨k, x⟩ := p
    by_cases hk : k = e
    · subst hk
      by_cases hf : f = k
      · subst hf
        simp
      · have hb : (f == k) = false := by simpa using hf
        simp only [List.map_cons, if_pos, List.lookup_cons, hb]
        exact ih
    · by_cases hf : f = k
      · subst hf
        simp [hk]
      · have hb : (f == k) = false := by simpa using hf
        simp only [List.map_cons, if_neg hk, List.lookup_cons, hb]
        exact ih

@[simp] theorem State.endpoint?_respond (s : State) (r : Response) (e : EndpointId) :
    (s.respond r).endpoint? e = s.endpoint? e := rfl
@[simp] theorem State.endpoint?_tick (s : State) (e : EndpointId) : s.tick.endpoint? e = s.endpoint? e := rfl
@[simp] theorem State.endpoint?_note (s : State) (c : PeriCall) (e : EndpointId) :
    (s.note c).endpoint? e = s.endpoint? e := rfl
@[simp] theorem State.endpoint?_setSlot (s : State) (k : Slot) (c : Option Entry) (e : EndpointId) :
    (s.setSlot k c).endpoint? e = s.endpoint? e := rfl
@[simp] theorem State.endpoint?_setCard (s : State) (k : Slot) (ent : Entry) (c : Card) (e : EndpointId) :
    (s.setCard k ent c).endpoint? e = s.endpoint? e := rfl
@[simp] theorem State.endpoint?_writeUser (s : State) (a : Nat) (v : Byte) (e : EndpointId) :
    (s.writeUser a v).endpoint? e = s.endpoint? e := rfl
@[simp] theorem State.endpoint?_raise (s : State) (f : FaultCode) (v : Int) (e : EndpointId) :
    (s.raise f v).endpoint? e = s.endpoint? e := rfl

@[simp] theorem State.endpoint?_putDevice (s : State) (e f : EndpointId) (d : Device) :
    (s.putDevice e d).endpoint? f =
      if f = e then (s.endpoint? f).map (fun x => { x with device := d }) else s.endpoint? f :=
  State.endpoint?_modifyEndpoint ..
@[simp] theorem State.endpoint?_putSendmode (s : State) (e f : EndpointId) (b : Bool) :
    (s.putSendmode e b).endpoint? f =
      if f = e then (s.endpoint? f).map (fun x => { x with sendmode := b }) else s.endpoint? f :=
  State.endpoint?_modifyEndpoint ..
@[simp] theorem State.endpoint?_putBusy (s : State) (e f : EndpointId) (b : Bool) :
    (s.putBusy e b).endpoint? f =
      if f = e then (s.interleave.endpoint? f).map (fun x => { x with busy := b }) else s.interleave.endpoint? f :=
  State.endpoint?_modifyEndpoint ..
@[simp] theorem State.endpoint?_putReady (s : State) (e f : EndpointId) (b : Bool) :
    (s.putReady e b).endpoint? f =
      if f = e then (s.interleave.endpoint? f).map (fun x => { x with ready := b }) else s.interleave.endpoint? f :=
  State.endpoint?_modifyEndpoint ..
@[simp] theorem State.endpoint?_putStatus (s : State) (e f : EndpointId) (c : Int) :
    (s.putStatus e c).endpoint? f =
      if f = e then (s.interleave.endpoint? f).map (fun x => { x with statusCode := c })
      else s.interleave.endpoint? f :=
  State.endpoint?_modifyEndpoint ..
@[simp] theorem State.endpoint?_putBlockSize (s : State) (e f : EndpointId) (v : BlockSize) :
    (s.putBlockSize e v).endpoint? f =
      if f = e then (s.interleave.endpoint? f).map (fun x => { x with blockSize := v })
      else s.interleave.endpoint? f :=
  State.endpoint?_modifyEndpoint ..

/-! ## Background agents (R80) -/

/-- An agent's write leaves everything of an endpoint but the four shared fields. -/
theorem AgentWrite.apply_eq (w : AgentWrite) (x : Endpoint) :
    w.apply x =
      { x with
        ready := (w.apply x).ready, busy := (w.apply x).busy, statusCode := (w.apply x).statusCode,
        blockSize := (w.apply x).blockSize } := by
  cases w <;> rfl

/-- Without the flag no agent runs (R80). -/
theorem Endpoint.runsAgent_of_bgAgent {x : Endpoint} (h : x.bgAgent = false) : x.runsAgent = false := by
  simp [Endpoint.runsAgent, h]

/-- Whether an agent runs is nothing that an agent writes. -/
theorem AgentsMade.runsAgent {x y : Endpoint} (h : AgentsMade x y) : y.runsAgent = x.runsAgent := by
  rw [h.1]
  rfl

/-- No agent runs behind a reference endpoint or a command device (R43, R202). -/
theorem Endpoint.runsAgent_of_device {x : Endpoint} (h : x.device.mayRunAgent = false) : x.runsAgent = false := by
  simp [Endpoint.runsAgent, h]

theorem AgentsMade.refl (x : Endpoint) : AgentsMade x x := ⟨rfl, fun _ => rfl, fun h => h⟩

theorem AgentsMade.trans {x y z : Endpoint} (h1 : AgentsMade x y) (h2 : AgentsMade y z) : AgentsMade x z := by
  obtain ⟨e1, a1, l1⟩ := h1
  obtain ⟨e2, a2, l2⟩ := h2
  refine ⟨?_, fun hx => ?_, fun hl => l2 (l1 hl)⟩
  · rw [e2, e1]
  · have hy := a1 hx
    subst hy
    exact a2 hx

/-- One write of an agent. -/
theorem AgentsMade.write (w : AgentWrite) (x : Endpoint) : AgentsMade x (if x.runsAgent then w.apply x else x) := by
  split
  · rename_i hb
    refine ⟨AgentWrite.apply_eq w x, fun h => by simp [h] at hb, fun h => ?_⟩
    cases w with
    | blockSize len cont => exact Nat.le_of_lt_succ len.isLt
    | ready b => exact h
    | busy b => exact h
    | statusCode c => exact h
  · exact AgentsMade.refl x

/-- A batch of agents' writes keeps every endpoint, but for what agents may make of it. -/
theorem State.foldl_agentWrite_endpoint? (batch : List (EndpointId × AgentWrite)) (s : State) (e : EndpointId) :
    (s.endpoint? e = none → (batch.foldl State.agentWrite s).endpoint? e = none) ∧
    ∀ x, s.endpoint? e = some x →
      ∃ y, (batch.foldl State.agentWrite s).endpoint? e = some y ∧ AgentsMade x y := by
  induction batch generalizing s with
  | nil => exact ⟨id, fun x h => ⟨x, h, AgentsMade.refl x⟩⟩
  | cons p rest ih =>
    obtain ⟨f, w⟩ := p
    rw [List.foldl_cons]
    obtain ⟨ihn, ihs⟩ := ih (s.agentWrite (f, w))
    have hstep : (s.agentWrite (f, w)).endpoint? e
        = if e = f then (s.endpoint? e).map (fun x => if x.runsAgent then w.apply x else x) else s.endpoint? e :=
      State.endpoint?_modifyEndpoint ..
    constructor
    · intro h
      apply ihn
      rw [hstep, h]
      simp
    · intro x h
      by_cases hf : e = f
      · have h' : (s.agentWrite (f, w)).endpoint? e = some (if x.runsAgent then w.apply x else x) := by
          rw [hstep, if_pos hf, h]
          rfl
        obtain ⟨y, hy, hm⟩ := ihs _ h'
        exact ⟨y, hy, (AgentsMade.write w x).trans hm⟩
      · have h' : (s.agentWrite (f, w)).endpoint? e = some x := by rw [hstep, if_neg hf, h]
        exact ihs _ h'

/-- A point for agents keeps every endpoint, but for what agents may make of it. -/
theorem State.interleave_endpoint? {s : State} {e : EndpointId} {x : Endpoint} (h : s.endpoint? e = some x) :
    ∃ y, s.interleave.endpoint? e = some y ∧ AgentsMade x y := by
  unfold State.interleave
  split
  · exact ⟨x, h, AgentsMade.refl x⟩
  · exact (State.foldl_agentWrite_endpoint? _ _ e).2 x h

/-- No endpoint comes into being at a point for agents. -/
theorem State.interleave_endpoint?_none {s : State} {e : EndpointId} (h : s.endpoint? e = none) :
    s.interleave.endpoint? e = none := by
  unfold State.interleave
  split
  · exact h
  · exact (State.foldl_agentWrite_endpoint? _ _ e).1 h

/-! ## The peripheral table -/

@[simp] theorem State.slot_setSlot_same (s : State) (k : Slot) (c : Option Entry) : (s.setSlot k c).slot k = c := by
  simp [State.slot, State.setSlot]

theorem State.slot_setSlot_other (s : State) {k j : Slot} (c : Option Entry) (h : j ≠ k) :
    (s.setSlot k c).slot j = s.slot j := by
  have hv : k.val ≠ j.val := fun hk => h (Fin.ext hk.symm)
  simp [State.slot, State.setSlot, hv]

end Sys2Proof.Machine
end

