-- ==== Sys2Proof/Laws/Link.lean ====
section
/-! SUPPORT. What the operations of the transfer engine (Machine/Flags.lean, Machine/Link.lean) can do, each said once:
what they leave unchanged in every case, and the whole effect on an endpoint without a background agent. -/

namespace Sys2Proof.Machine

/-! ## What every transfer leaves unchanged -/

/-- Nothing but endpoints, clock, wire and the agents' script differs. -/
structure Moved (s t : State) : Prop where
  params : t.params = s.params
  userMemory : t.userMemory = s.userMemory
  peripheralTable : t.peripheralTable = s.peripheralTable
  romMapping : t.romMapping = s.romMapping
  runState : t.runState = s.runState
  allocBits : t.allocBits = s.allocBits
  allocMap : t.allocMap = s.allocMap
  pending : t.pending = s.pending
  response : t.response = s.response
  periCalls : t.periCalls = s.periCalls
  resetCount : t.resetCount = s.resetCount
  installs : t.installs = s.installs

theorem Moved.refl (s : State) : Moved s s := by constructor <;> rfl

theorem Moved.trans {s t u : State} (h1 : Moved s t) (h2 : Moved t u) : Moved s u where
  params := h2.params.trans h1.params
  userMemory := h2.userMemory.trans h1.userMemory
  peripheralTable := h2.peripheralTable.trans h1.peripheralTable
  romMapping := h2.romMapping.trans h1.romMapping
  runState := h2.runState.trans h1.runState
  allocBits := h2.allocBits.trans h1.allocBits
  allocMap := h2.allocMap.trans h1.allocMap
  pending := h2.pending.trans h1.pending
  response := h2.response.trans h1.response
  periCalls := h2.periCalls.trans h1.periCalls
  resetCount := h2.resetCount.trans h1.resetCount
  installs := h2.installs.trans h1.installs

/-- A transfer and its response: the frame of the statements. -/
theorem Moved.linkFrame {s t : State} (h : Moved s t) (r : Response) : LinkFrame s (t.respond r) := by
  refine ⟨fun a => State.userByte_congr (s := s) h.userMemory h.resetCount a, ?_⟩
  obtain ⟨h1, h2, h3, h4, h5, h6, h7, h8, h9, h10, h11, h12⟩ := h
  cases s
  cases t
  simp_all [State.respond]

theorem Moved.interleave (s : State) : Moved s s.interleave := by constructor <;> simp
theorem Moved.tick (s : State) : Moved s s.tick := by constructor <;> simp
theorem Moved.modifyEndpoint (s : State) (e : EndpointId) (g : Endpoint → Endpoint) : Moved s (s.modifyEndpoint e g) := by
  constructor <;> simp
theorem Moved.putBusy (s : State) (e : EndpointId) (b : Bool) : Moved s (s.putBusy e b) := by constructor <;> simp
theorem Moved.putReady (s : State) (e : EndpointId) (b : Bool) : Moved s (s.putReady e b) := by constructor <;> simp
theorem Moved.putStatus (s : State) (e : EndpointId) (c : Int) : Moved s (s.putStatus e c) := by constructor <;> simp
theorem Moved.putBlockSize (s : State) (e : EndpointId) (v : BlockSize) : Moved s (s.putBlockSize e v) := by
  constructor <;> simp
theorem Moved.enterTransfer (s : State) (e : EndpointId) : Moved s (s.enterTransfer e) :=
  (Moved.putBusy s e true).trans (Moved.putReady _ e false)
theorem Moved.leaveTransfer (s : State) (e : EndpointId) : Moved s (s.leaveTransfer e) :=
  (Moved.putBusy s e false).trans (Moved.putReady _ e true)
theorem Moved.putReceivedLen (s : State) (e : EndpointId) (n : Nat) : Moved s (s.putReceivedLen e n) :=
  (Moved.interleave s).trans (Moved.putBlockSize _ e _)

/-! ## Which endpoints an operation changes -/

theorem EndpointsKept.refl (s : State) (l : List EndpointId) : EndpointsKept s s l :=
  fun _ _ => ⟨id, fun x h => ⟨x, h, AgentsMade.refl x⟩⟩

theorem EndpointsKept.trans {s t u : State} {l : List EndpointId} (h1 : EndpointsKept s t l) (h2 : EndpointsKept t u l) :
    EndpointsKept s u l := by
  intro f hf
  obtain ⟨n1, k1⟩ := h1 f hf
  obtain ⟨n2, k2⟩ := h2 f hf
  refine ⟨fun h => n2 (n1 h), fun x hx => ?_⟩
  obtain ⟨y, hy, ay⟩ := k1 x hx
  obtain ⟨z, hz, az⟩ := k2 y hy
  exact ⟨z, hz, ay.trans az⟩

theorem EndpointsKept.mono {s t : State} {l m : List EndpointId} (h : EndpointsKept s t l) (hl : ∀ e ∈ l, e ∈ m) :
    EndpointsKept s t m := fun f hf => h f (fun hm => hf (hl f hm))

/-- Only lookups matter. -/
theorem EndpointsKept.of_endpoints {s t : State} (l : List EndpointId) (h : t.endpoints = s.endpoints) :
    EndpointsKept s t l := by
  intro f _
  unfold State.endpoint?
  rw [h]
  exact ⟨id, fun x hx => ⟨x, hx, AgentsMade.refl x⟩⟩

theorem EndpointsKept.modifyEndpoint (s : State) (e : EndpointId) (g : Endpoint → Endpoint) :
    EndpointsKept s (s.modifyEndpoint e g) [e] := by
  intro f hf
  have hne : f ≠ e := by simpa using hf
  rw [State.endpoint?_modifyEndpoint, if_neg hne]
  exact ⟨id, fun x h => ⟨x, h, AgentsMade.refl x⟩⟩

theorem EndpointsKept.interleave (s : State) (l : List EndpointId) : EndpointsKept s s.interleave l :=
  fun _ _ => ⟨State.interleave_endpoint?_none, fun _ h => State.interleave_endpoint? h⟩

theorem EndpointsKept.putBusy (s : State) (e : EndpointId) (b : Bool) : EndpointsKept s (s.putBusy e b) [e] :=
  (EndpointsKept.interleave s [e]).trans (EndpointsKept.modifyEndpoint _ _ _)
theorem EndpointsKept.putReady (s : State) (e : EndpointId) (b : Bool) : EndpointsKept s (s.putReady e b) [e] :=
  (EndpointsKept.interleave s [e]).trans (EndpointsKept.modifyEndpoint _ _ _)
theorem EndpointsKept.putStatus (s : State) (e : EndpointId) (c : Int) : EndpointsKept s (s.putStatus e c) [e] :=
  (EndpointsKept.interleave s [e]).trans (EndpointsKept.modifyEndpoint _ _ _)
theorem EndpointsKept.putBlockSize (s : State) (e : EndpointId) (v : BlockSize) :
    EndpointsKept s (s.putBlockSize e v) [e] :=
  (EndpointsKept.interleave s [e]).trans (EndpointsKept.modifyEndpoint _ _ _)
theorem EndpointsKept.enterTransfer (s : State) (e : EndpointId) : EndpointsKept s (s.enterTransfer e) [e] :=
  (EndpointsKept.putBusy s e true).trans (EndpointsKept.putReady _ e false)
theorem EndpointsKept.leaveTransfer (s : State) (e : EndpointId) : EndpointsKept s (s.leaveTransfer e) [e] :=
  (EndpointsKept.putBusy s e false).trans (EndpointsKept.putReady _ e true)
theorem EndpointsKept.putReceivedLen (s : State) (e : EndpointId) (n : Nat) :
    EndpointsKept s (s.putReceivedLen e n) [e] :=
  (EndpointsKept.interleave s [e]).trans (EndpointsKept.putBlockSize _ e _)
theorem EndpointsKept.tick (s : State) (l : List EndpointId) : EndpointsKept s s.tick l :=
  EndpointsKept.of_endpoints l rfl

/-- An endpoint without an agent that an operation keeps is exactly as before. -/
theorem EndpointsKept.at {s t : State} {l : List EndpointId} {e : EndpointId} {x : Endpoint} (h : EndpointsKept s t l)
    (he : e ∉ l) (hx : s.endpoint? e = some x) (hb : x.bgAgent = false) : t.endpoint? e = some x := by
  obtain ⟨y, hy, ay⟩ := (h e he).2 x hx
  rw [hy, ay.2.1 (Endpoint.runsAgent_of_bgAgent hb)]

/-! ## The baud delay (R196) -/

theorem baudDelay_moved (e : EndpointId) (bytes t0 : Nat) (s : State) : Moved s (baudDelay e bytes t0 s) := by
  unfold baudDelay
  split
  · exact Moved.refl s
  · constructor <;> simp

theorem baudDelay_kept (e : EndpointId) (bytes t0 : Nat) (s : State) : EndpointsKept s (baudDelay e bytes t0 s) [e] := by
  unfold baudDelay
  split
  · exact EndpointsKept.refl s [e]
  · have h := (EndpointsKept.tick s [e]).trans (EndpointsKept.modifyEndpoint s.tick e
      (fun x => { x with delayAcc := (delayStep x.delayAcc bytes x.baud (s.tick.now - t0)).1 }))
    exact h.trans (EndpointsKept.of_endpoints [e] rfl)

@[simp] theorem baudDelay_wire (e : EndpointId) (bytes t0 : Nat) (s : State) : (baudDelay e bytes t0 s).wire = s.wire := by
  unfold baudDelay
  split <;> simp

/-- No byte: nothing is read, written or slept (R197 (1)). -/
theorem delayStep_zero (acc : Int) (baud elapsed : Nat) : delayStep acc 0 baud elapsed = (acc, 0) := by simp [delayStep]

/-- The delay step on an endpoint: its accumulator, the clock, the nanoseconds slept, the readings of the clock. -/
theorem baudDelay_at {e : EndpointId} {bytes t0 : Nat} {s : State} {x : Endpoint} (h : s.endpoint? e = some x) :
    let step := delayStep x.delayAcc bytes x.baud (s.now + Config.clockAdvance s.clockReads - t0)
    (baudDelay e bytes t0 s).endpoint? e = some { x with delayAcc := step.1 } ∧
    (baudDelay e bytes t0 s).now
      = s.now + (if bytes = 0 then 0 else Config.clockAdvance s.clockReads + step.2) ∧
    (baudDelay e bytes t0 s).slept = s.slept + step.2 ∧
    (baudDelay e bytes t0 s).clockReads = s.clockReads + (if bytes = 0 then 0 else 1) := by
  intro step
  unfold baudDelay
  split
  · rename_i h0
    subst h0
    simp only [step, delayStep_zero]
    exact ⟨h, rfl, rfl, rfl⟩
  · have ht : s.tick.endpoint? e = some x := h
    refine ⟨?_, ?_, ?_, ?_⟩
    · show (s.tick.modifyEndpoint e
        (fun x => { x with delayAcc := (delayStep x.delayAcc bytes x.baud (s.tick.now - t0)).1 })).endpoint? e = _
      rw [State.endpoint?_modifyEndpoint, if_pos rfl, ht]
      rfl
    · simp only [ht, Option.map_some, Option.getD_some, State.tick_now]
      show _ = s.now + (Config.clockAdvance s.clockReads + step.2)
      rw [← Nat.add_assoc]
    · simp only [ht, Option.map_some, Option.getD_some, State.tick_now]
      rfl
    · simp

/-! ## One endpoint without a background agent -/

variable {s : State} {e : EndpointId} {x : Endpoint}

theorem interleave_at (h : s.endpoint? e = some x) (hb : x.bgAgent = false) : s.interleave.endpoint? e = some x :=
  (EndpointsKept.interleave s []).at (by simp) h hb

theorem putBusy_at (h : s.endpoint? e = some x) (hb : x.bgAgent = false) (b : Bool) :
    (s.putBusy e b).endpoint? e = some { x with busy := b } := by
  simp [interleave_at h hb]
theorem putReady_at (h : s.endpoint? e = some x) (hb : x.bgAgent = false) (b : Bool) :
    (s.putReady e b).endpoint? e = some { x with ready := b } := by
  simp [interleave_at h hb]
theorem putStatus_at (h : s.endpoint? e = some x) (hb : x.bgAgent = false) (c : Int) :
    (s.putStatus e c).endpoint? e = some { x with statusCode := c } := by
  simp [interleave_at h hb]
theorem putBlockSize_at (h : s.endpoint? e = some x) (hb : x.bgAgent = false) (v : BlockSize) :
    (s.putBlockSize e v).endpoint? e = some { x with blockSize := v } := by
  simp [interleave_at h hb]
theorem enterTransfer_at (h : s.endpoint? e = some x) (hb : x.bgAgent = false) :
    (s.enterTransfer e).endpoint? e = some { x with busy := true, ready := false } :=
  putReady_at (putBusy_at h hb true) hb false
theorem leaveTransfer_at (h : s.endpoint? e = some x) (hb : x.bgAgent = false) :
    (s.leaveTransfer e).endpoint? e = some { x with busy := false, ready := true } :=
  putReady_at (putBusy_at h hb false) hb true
theorem putReceivedLen_at (h : s.endpoint? e = some x) (hb : x.bgAgent = false) (n : Nat) :
    (s.putReceivedLen e n).endpoint? e = some { x with blockSize := ⟨n, x.blockSize.cont⟩ } := by
  have h1 := interleave_at h hb
  unfold State.putReceivedLen
  simp only [h1, Option.map_some, Option.getD_some]
  exact putBlockSize_at h1 hb _

/-! ## The receive hook -/

theorem applyConsumed_moved (e : EndpointId) (d : Device) (status : Option Int) (s : State) :
    Moved s (applyConsumed e d status s) := by
  unfold applyConsumed
  split
  · exact Moved.modifyEndpoint ..
  · exact (Moved.modifyEndpoint s e _).trans (Moved.putStatus ..)

theorem applyConsumed_kept (e : EndpointId) (d : Device) (status : Option Int) (s : State) :
    EndpointsKept s (applyConsumed e d status s) [e] := by
  unfold applyConsumed
  split
  · exact EndpointsKept.modifyEndpoint _ _ _
  · exact (EndpointsKept.modifyEndpoint s e _).trans (EndpointsKept.putStatus _ _ _)

theorem applyConsumed_at (h : s.endpoint? e = some x) (hb : x.bgAgent = false) (d : Device) (status : Option Int) :
    (applyConsumed e d status s).endpoint? e = some { x with device := d, statusCode := status.getD x.statusCode } := by
  have hd : (s.putDevice e d).endpoint? e = some { x with device := d } := by simp [h]
  unfold applyConsumed
  split
  · exact hd
  · exact putStatus_at hd hb _

@[simp] theorem applyConsumed_now (e : EndpointId) (d : Device) (status : Option Int) (s : State) :
    (applyConsumed e d status s).now = s.now := by unfold applyConsumed; split <;> simp
@[simp] theorem applyConsumed_slept (e : EndpointId) (d : Device) (status : Option Int) (s : State) :
    (applyConsumed e d status s).slept = s.slept := by unfold applyConsumed; split <;> simp
@[simp] theorem applyConsumed_clockReads (e : EndpointId) (d : Device) (status : Option Int) (s : State) :
    (applyConsumed e d status s).clockReads = s.clockReads := by unfold applyConsumed; split <;> simp
@[simp] theorem applyConsumed_wire (e : EndpointId) (d : Device) (status : Option Int) (s : State) :
    (applyConsumed e d status s).wire = s.wire := by unfold applyConsumed; split <;> simp

/-- What the receive hook of an endpoint makes of a payload, where `run` is what a command device does with a text. -/
def Endpoint.consumeBy (run : RunCommand) (x : Endpoint) (payload : Bytes) : Option (Device × Option Int) :=
  match x.device with
  | .reference tx rx => some (.reference tx (rx ++ payload), none)
  | .command d =>
    some (.command (consumeWith run payload x.statusCode d).1, (consumeWith run payload x.statusCode d).2)
  | .vendor id token => (Config.hookConsume id token payload).map (fun r => (.vendor id r.1, r.2))

theorem Endpoint.consumeBy_executeText (x : Endpoint) (payload : Bytes) :
    x.consumeBy executeText payload = x.consume payload := rfl

/-- The receive hook answers exactly with what the device makes of the payload. -/
theorem consumeBlock_eq_next {run : RunCommand} {e : EndpointId} {payload : Bytes} {s t : State} :
    consumeBlock run e payload s = .next t ↔
      ∃ x r, s.endpoint? e = some x ∧ x.consumeBy run payload = some r ∧ t = applyConsumed e r.1 r.2 s := by
  unfold consumeBlock Endpoint.consumeBy
  rw [withEndpoint_eq_next]
  constructor
  · rintro ⟨x, hx, h⟩
    refine ⟨x, ?_⟩
    cases hd : x.device with
    | reference tx rx =>
      rw [hd] at h
      exact ⟨_, hx, rfl, (Host.Outcome.next.inj h).symm⟩
    | command d =>
      rw [hd] at h
      exact ⟨_, hx, rfl, (Host.Outcome.next.inj h).symm⟩
    | vendor id token =>
      rw [hd] at h
      cases hk : Config.hookConsume id token payload with
      | none => simp [hk] at h
      | some r =>
        simp only [hk, Host.Outcome.next.injEq] at h
        exact ⟨(.vendor id r.1, r.2), hx, by simp [hk], h.symm⟩
  · rintro ⟨x, r, hx, hr, rfl⟩
    refine ⟨x, hx, ?_⟩
    cases hd : x.device with
    | reference tx rx =>
      rw [hd] at hr
      obtain rfl := Option.some.inj hr
      rfl
    | command d =>
      rw [hd] at hr
      obtain rfl := Option.some.inj hr
      rfl
    | vendor id token =>
      rw [hd] at hr
      obtain ⟨a, ha, rfl⟩ := Option.map_eq_some_iff.mp hr
      simp only [ha]

/-! ## WRITEOUT (R187) -/

/-- The state in which the receive hook of a WRITEOUT runs. -/
def writeoutEntered (f : EndpointId) (data : Bytes) (s : State) : State :=
  { ((s.tick.enterTransfer f).putReceivedLen f (min data.length Config.block)) with
    wire := some ⟨f, frameOf data, min data.length Config.block⟩ }

theorem writeoutEntered_moved (f : EndpointId) (data : Bytes) (s : State) : Moved s (writeoutEntered f data s) := by
  have h : Moved s ((s.tick.enterTransfer f).putReceivedLen f (min data.length Config.block)) :=
    ((Moved.tick s).trans (Moved.enterTransfer _ f)).trans (Moved.putReceivedLen _ f _)
  exact h.trans (by constructor <;> rfl)

theorem writeoutEntered_kept (f : EndpointId) (data : Bytes) (s : State) :
    EndpointsKept s (writeoutEntered f data s) [f] := by
  have h : EndpointsKept s ((s.tick.enterTransfer f).putReceivedLen f (min data.length Config.block)) [f] :=
    ((EndpointsKept.tick s [f]).trans (EndpointsKept.enterTransfer _ f)).trans (EndpointsKept.putReceivedLen _ f _)
  exact h.trans (EndpointsKept.of_endpoints [f] rfl)

/-- The bytes of the frame that the count covers are the clamped data (R98, R187). -/
theorem frameOf_take (data : Bytes) : (frameOf data).take (min data.length Config.block) = data.take Config.block := by
  unfold frameOf
  rw [List.take_append_of_le_length (by simp [List.length_take, Nat.min_comm]), List.take_take]
  rcases Nat.le_total data.length Config.block with h | h
  · rw [Nat.min_eq_left h, Nat.min_eq_left h, List.take_length, List.take_of_length_le h]
  · rw [Nat.min_eq_right h, Nat.min_self]

/-- A frame has 4096 bytes (R98). -/
theorem frameOf_length (data : Bytes) : (frameOf data).length = Config.block := by
  unfold frameOf
  rw [List.length_append, List.length_take, List.length_replicate]
  omega

/-- WRITEOUT answers exactly when the receiver exists and its hook returns; what then follows is the delay and the return
to IDLE. -/
theorem writeoutWith_eq_next {run : RunCommand} {f : EndpointId} {data : Bytes} {s t : State} :
    writeoutWith run f data s = .next t ↔
      ∃ x y r, s.endpoint? f = some x ∧ (writeoutEntered f data s).endpoint? f = some y ∧
        y.consumeBy run (data.take Config.block) = some r ∧
        t = (baudDelay f (min data.length Config.block) s.tick.now
          (applyConsumed f r.1 r.2 (writeoutEntered f data s))).leaveTransfer f := by
  unfold writeoutWith
  rw [withEndpoint_eq_next]
  simp only [andThen_eq_next, consumeBlock_eq_next, frameOf_take, Host.Outcome.next.injEq]
  constructor
  · rintro ⟨x, hx, s3, ⟨y, r, hy, hr, rfl⟩, rfl⟩
    exact ⟨x, y, r, hx, hy, hr, rfl⟩
  · rintro ⟨x, y, r, hx, hy, hr, rfl⟩
    exact ⟨x, hx, _, ⟨y, r, hy, hr, rfl⟩, rfl⟩

/-- What a WRITEOUT leaves unchanged, in every case. -/
theorem writeoutWith_frame {run : RunCommand} {f : EndpointId} {data : Bytes} {s t : State}
    (h : writeoutWith run f data s = .next t) : Moved s t ∧ EndpointsKept s t [f] := by
  obtain ⟨x, y, r, -, -, -, rfl⟩ := writeoutWith_eq_next.mp h
  exact
    ⟨(((writeoutEntered_moved f data s).trans (applyConsumed_moved ..)).trans (baudDelay_moved ..)).trans
        (Moved.leaveTransfer ..),
      (((writeoutEntered_kept f data s).trans (applyConsumed_kept _ _ _ _)).trans (baudDelay_kept _ _ _ _)).trans
        (EndpointsKept.leaveTransfer _ _)⟩

/-- An endpoint without an agent after a WRITEOUT of `n` bytes whose hook left `r` (R187); `elapsed` is the clock's advance
between its two readings. -/
def Endpoint.received (x : Endpoint) (n : Nat) (r : Device × Option Int) (elapsed : Nat) : Endpoint :=
  { x with
    busy := false, ready := true, blockSize := ⟨n, x.blockSize.cont⟩, device := r.1,
    statusCode := r.2.getD x.statusCode, delayAcc := (delayStep x.delayAcc n x.baud elapsed).1 }

/-- WRITEOUT into an endpoint without an agent, whole (R187, R196). -/
theorem writeoutWith_at {run : RunCommand} {data : Bytes} {r : Device × Option Int}
    (h : s.endpoint? e = some x) (hb : x.bgAgent = false)
    (hr : ({ x with busy := true, ready := false, blockSize := ⟨min data.length Config.block, x.blockSize.cont⟩ } :
      Endpoint).consumeBy run (data.take Config.block) = some r) :
    let n := min data.length Config.block
    let elapsed := Config.clockAdvance (s.clockReads + 1)
    let sleep := (delayStep x.delayAcc n x.baud elapsed).2
    ∃ t, writeoutWith run e data s = .next t ∧ Moved s t ∧ EndpointsKept s t [e] ∧
      t.endpoint? e = some (x.received n r elapsed) ∧ t.wire = some ⟨e, frameOf data, n⟩ ∧
      t.now = s.now + Config.clockAdvance s.clockReads + (if n = 0 then 0 else elapsed + sleep) ∧
      t.slept = s.slept + sleep ∧ t.clockReads = s.clockReads + (if n = 0 then 1 else 2) := by
  intro n elapsed sleep
  have h1 : (writeoutEntered e data s).endpoint? e
      = some { x with busy := true, ready := false, blockSize := ⟨n, x.blockSize.cont⟩ } := by
    have ht : s.tick.endpoint? e = some x := h
    exact putReceivedLen_at (enterTransfer_at ht hb) hb n
  have hn : (writeoutEntered e data s).now = s.now + Config.clockAdvance s.clockReads := by
    simp [writeoutEntered, State.enterTransfer, State.putReceivedLen]
  have hc : (writeoutEntered e data s).clockReads = s.clockReads + 1 := by
    simp [writeoutEntered, State.enterTransfer, State.putReceivedLen]
  have hs : (writeoutEntered e data s).slept = s.slept := by
    simp [writeoutEntered, State.enterTransfer, State.putReceivedLen]
  have h2 := applyConsumed_at h1 hb r.1 r.2
  obtain ⟨d1, d2, d3, d4⟩ := baudDelay_at (bytes := n) (t0 := s.tick.now) h2
  rw [applyConsumed_now, applyConsumed_clockReads, hn, hc] at d1 d2 d3
  rw [applyConsumed_slept, hs] at d3
  rw [applyConsumed_clockReads, hc] at d4
  have he : s.now + Config.clockAdvance s.clockReads + Config.clockAdvance (s.clockReads + 1) - s.tick.now = elapsed := by
    simp only [State.tick_now]
    omega
  rw [he] at d1 d2 d3
  have hw := writeoutWith_eq_next.mpr ⟨x, _, r, h, h1, hr, rfl⟩
  refine ⟨_, hw, (writeoutWith_frame hw).1, (writeoutWith_frame hw).2, ?_, ?_, ?_, ?_, ?_⟩
  · exact leaveTransfer_at d1 hb
  · simp [State.leaveTransfer, writeoutEntered, n]
  · simp only [State.leaveTransfer, State.putReady_now, State.putBusy_now]
    exact d2
  · simp only [State.leaveTransfer, State.putReady_slept, State.putBusy_slept]
    exact d3
  · simp only [State.leaveTransfer, State.putReady_clockReads, State.putBusy_clockReads]
    rw [d4]
    split <;> omega

/-! ## START_SEND and START_READ (R185, R186) -/

/-- The send hook answers exactly when the device produces and the WRITEOUT into the recipient answers. -/
theorem produceBlock_eq_next {e f : EndpointId} {s t : State} {n : Nat} :
    produceBlock e f s = .next (t, n) ↔
      ∃ x data d, s.endpoint? e = some x ∧ produceOf e x = .next (data, d) ∧
        writeout f data (s.putDevice e d) = .next t ∧ n = data.length := by
  unfold produceBlock
  rw [withEndpoint_eq_next]
  simp only [andThen_eq_next, Prod.exists, Host.Outcome.next.injEq, Prod.mk.injEq]
  constructor
  · rintro ⟨x, hx, data, d, hp, t', hw, rfl, rfl⟩
    exact ⟨x, data, d, hx, hp, hw, rfl⟩
  · rintro ⟨x, data, d, hx, hp, hw, rfl⟩
    exact ⟨x, hx, data, d, hp, t, hw, rfl, rfl⟩

/-- What the send hook leaves unchanged, in every case. -/
theorem produceBlock_frame {e f : EndpointId} {s t : State} {n : Nat} (h : produceBlock e f s = .next (t, n)) :
    Moved s t ∧ EndpointsKept s t [e, f] := by
  obtain ⟨x, data, d, -, -, hw, -⟩ := produceBlock_eq_next.mp h
  obtain ⟨hm, hk⟩ := writeoutWith_frame hw
  refine ⟨(Moved.modifyEndpoint s e _).trans hm, ?_⟩
  have h1 : EndpointsKept s (s.putDevice e d) [e, f] := (EndpointsKept.modifyEndpoint s e _).mono (by simp)
  exact h1.trans (hk.mono (by simp))

/-- START_SEND answers in one of two ways: no recipient, and the flags pulse; or the whole transfer. -/
theorem startSend_eq_next {e : EndpointId} {s t : State} (h : startSend e s = .next t) :
    (∃ x, s.endpoint? e = some x ∧ (s.tick.enterTransfer e).recipientOf e = none ∧
      t = (s.tick.enterTransfer e).leaveTransfer e) ∨
    (∃ x f u n more, s.endpoint? e = some x ∧ (s.tick.enterTransfer e).recipientOf e = some f ∧
      produceBlock e f (s.tick.enterTransfer e) = .next (u, n) ∧ hasNextHook e u = .next more ∧
      t = (baudDelay e n s.tick.now (u.putBlockSize e ⟨n, more⟩)).leaveTransfer e) := by
  unfold startSend at h
  obtain ⟨x, hx, h⟩ := withEndpoint_eq_next.mp h
  simp only at h
  split at h <;> rename_i hf
  · exact .inl ⟨x, hx, hf, (Host.Outcome.next.inj h).symm⟩
  · rename_i f
    obtain ⟨⟨u, n⟩, hp, h⟩ := andThen_eq_next.mp h
    obtain ⟨more, hm, h⟩ := andThen_eq_next.mp h
    exact .inr ⟨x, f, u, n, more, hx, hf, hp, hm, (Host.Outcome.next.inj h).symm⟩

/-- What START_SEND leaves unchanged, in every case: endpoints other than the sender and its recipient, and everything
that is no endpoint. -/
theorem startSend_frame {e : EndpointId} {s t : State} (h : startSend e s = .next t) :
    Moved s t ∧ ∃ l, EndpointsKept s t l := by
  have hm : Moved s (s.tick.enterTransfer e) := (Moved.tick s).trans (Moved.enterTransfer _ e)
  have hk : EndpointsKept s (s.tick.enterTransfer e) [e] := (EndpointsKept.tick s [e]).trans (EndpointsKept.enterTransfer _ e)
  rcases startSend_eq_next h with ⟨x, -, -, rfl⟩ | ⟨x, f, u, n, more, -, -, hp, -, rfl⟩
  · exact ⟨hm.trans (Moved.leaveTransfer ..), [e], hk.trans (EndpointsKept.leaveTransfer _ e)⟩
  · obtain ⟨pm, pk⟩ := produceBlock_frame hp
    have hb : EndpointsKept s u [e, f] := (hk.mono (by simp)).trans pk
    have h1 : EndpointsKept u (u.putBlockSize e ⟨n, more⟩) [e, f] := (EndpointsKept.putBlockSize u e _).mono (by simp)
    have h2 : EndpointsKept (u.putBlockSize e ⟨n, more⟩) (baudDelay e n s.tick.now (u.putBlockSize e ⟨n, more⟩)) [e, f] :=
      (baudDelay_kept e n s.tick.now (u.putBlockSize e ⟨n, more⟩)).mono (by simp)
    have h3 := (EndpointsKept.leaveTransfer (baudDelay e n s.tick.now (u.putBlockSize e ⟨n, more⟩)) e).mono
      (m := [e, f]) (by simp)
    exact
      ⟨(((hm.trans pm).trans (Moved.putBlockSize ..)).trans (baudDelay_moved ..)).trans (Moved.leaveTransfer ..),
        [e, f], ((hb.trans h1).trans h2).trans h3⟩

/-- A sender without an agent after a START_SEND of `n` bytes (R185). -/
def Endpoint.sent (x : Endpoint) (n : Nat) (more : Bool) (d : Device) (elapsed : Nat) : Endpoint :=
  { x with
    busy := false, ready := true, blockSize := ⟨n, more⟩, device := d,
    delayAcc := (delayStep x.delayAcc n x.baud elapsed).1 }

/-- START_SEND between two different endpoints without agents, whole (R185, R187, R196). -/
theorem startSend_at {s : State} {e f : EndpointId} {x y : Endpoint} {data : Bytes} {d : Device} {more : Bool}
    {r : Device × Option Int} (hne : e ≠ f) (hx : s.endpoint? e = some x) (hxb : x.bgAgent = false)
    (hxr : x.recipient = some f) (hy : s.endpoint? f = some y) (hyb : y.bgAgent = false)
    (hp : produceOf e { x with busy := true, ready := false } = .next (data, d)) (hlen : data.length ≤ Config.block)
    (hh : hasNextOf e d = .next more)
    (hr : ({ y with busy := true, ready := false, blockSize := ⟨data.length, y.blockSize.cont⟩ } : Endpoint).consume data
      = some r) :
    let n := data.length
    let wait := Config.clockAdvance (s.clockReads + 2)
    let sleep := (delayStep y.delayAcc n y.baud wait).2
    let elapsed := senderElapsed s.clockReads sleep
    ∃ t, startSend e s = .next t ∧ Moved s t ∧ EndpointsKept s t [e, f] ∧
      t.endpoint? e = some (x.sent n more d elapsed) ∧ t.endpoint? f = some (y.received n r wait) ∧
      t.wire = some ⟨f, frameOf data, n⟩ ∧ s.now ≤ t.now ∧
      t.slept = s.slept + sleep + (delayStep x.delayAcc n x.baud elapsed).2 ∧
      t.clockReads = s.clockReads + (if n = 0 then 2 else 4) := by
  intro n wait sleep elapsed
  have hm : Moved s (s.tick.enterTransfer e) := (Moved.tick s).trans (Moved.enterTransfer _ e)
  have hk : EndpointsKept s (s.tick.enterTransfer e) [e] :=
    (EndpointsKept.tick s [e]).trans (EndpointsKept.enterTransfer _ e)
  have hn : min data.length Config.block = n := Nat.min_eq_left hlen
  have hx1 : (s.tick.enterTransfer e).endpoint? e = some { x with busy := true, ready := false } := by
    have ht : s.tick.endpoint? e = some x := hx
    exact enterTransfer_at ht hxb
  have hy1 : ((s.tick.enterTransfer e).putDevice e d).endpoint? f = some y := by
    rw [State.endpoint?_putDevice, if_neg (Ne.symm hne)]
    exact hk.at (by simpa using Ne.symm hne) hy hyb
  have hx2 : ((s.tick.enterTransfer e).putDevice e d).endpoint? e
      = some { x with busy := true, ready := false, device := d } := by
    rw [State.endpoint?_putDevice, if_pos rfl, hx1]
    rfl
  have hr' : ({ y with
      busy := true, ready := false, blockSize := ⟨min data.length Config.block, y.blockSize.cont⟩ } : Endpoint).consumeBy
      executeText (data.take Config.block) = some r := by
    rw [hn, List.take_of_length_le hlen]
    exact hr
  obtain ⟨u, hu, um, uk, uf, uw, un, us, uc⟩ := writeoutWith_at hy1 hyb hr'
  rw [hn] at uf uw un us uc
  have hreads : ((s.tick.enterTransfer e).putDevice e d).clockReads = s.clockReads + 1 := by
    simp [State.enterTransfer]
  have hnow : ((s.tick.enterTransfer e).putDevice e d).now = s.now + Config.clockAdvance s.clockReads := by
    simp [State.enterTransfer]
  have hslept : ((s.tick.enterTransfer e).putDevice e d).slept = s.slept := by simp [State.enterTransfer]
  rw [hreads] at uf un us uc
  rw [hnow] at un
  rw [hslept] at us
  replace un : u.now = s.now + Config.clockAdvance s.clockReads + Config.clockAdvance (s.clockReads + 1)
      + (if n = 0 then 0 else wait + sleep) := un
  replace us : u.slept = s.slept + sleep := us
  have hpb : produceBlock e f (s.tick.enterTransfer e) = .next (u, n) :=
    produceBlock_eq_next.mpr ⟨_, data, d, hx1, hp, hu, rfl⟩
  have hue : u.endpoint? e = some { x with busy := true, ready := false, device := d } :=
    uk.at (by simpa using hne) hx2 hxb
  have hhn : hasNextHook e u = .next more := by
    unfold hasNextHook
    rw [withEndpoint_some _ hue]
    exact hh
  have hrec : (s.tick.enterTransfer e).recipientOf e = some f := by
    unfold State.recipientOf
    rw [hx1]
    exact hxr
  have heq : startSend e s
      = .next ((baudDelay e n s.tick.now (u.putBlockSize e ⟨n, more⟩)).leaveTransfer e) := by
    unfold startSend
    rw [withEndpoint_some _ hx]
    simp only [hrec, hpb, hhn, andThen_next]
  have hub := putBlockSize_at hue hxb ⟨n, more⟩
  obtain ⟨d1, d2, d3, d4⟩ := baudDelay_at (bytes := n) (t0 := s.tick.now) hub
  simp only [State.putBlockSize_now, State.putBlockSize_clockReads, State.putBlockSize_slept] at d1 d2 d3 d4
  have hstep : ∀ acc baud,
      delayStep acc n baud (u.now + Config.clockAdvance u.clockReads - s.tick.now) = delayStep acc n baud elapsed := by
    intro acc baud
    by_cases h0 : n = 0
    · rw [h0, delayStep_zero, delayStep_zero]
    · have h3 : s.clockReads + 1 + 2 = s.clockReads + 3 := rfl
      rw [un, uc, if_neg h0, if_neg h0, State.tick_now, h3]
      congr 1
      simp only [elapsed, senderElapsed, sleep, wait]
      omega
  rw [hstep] at d1 d2 d3
  refine ⟨_, heq, ?_, ?_, ?_, ?_, ?_, ?_, ?_, ?_⟩
  · exact (startSend_frame heq).1
  · have h0 : EndpointsKept s u [e, f] := (hk.mono (by simp)).trans (produceBlock_frame hpb).2
    have h1 : EndpointsKept u (u.putBlockSize e ⟨n, more⟩) [e, f] := (EndpointsKept.putBlockSize u e _).mono (by simp)
    have h2 := (baudDelay_kept e n s.tick.now (u.putBlockSize e ⟨n, more⟩)).mono (m := [e, f]) (by simp)
    have h3 := (EndpointsKept.leaveTransfer (baudDelay e n s.tick.now (u.putBlockSize e ⟨n, more⟩)) e).mono
      (m := [e, f]) (by simp)
    exact ((h0.trans h1).trans h2).trans h3
  · exact leaveTransfer_at d1 hxb
  · have h1 : EndpointsKept u (u.putBlockSize e ⟨n, more⟩) [e] := EndpointsKept.putBlockSize u e _
    have h2 := baudDelay_kept e n s.tick.now (u.putBlockSize e ⟨n, more⟩)
    have h3 := EndpointsKept.leaveTransfer (baudDelay e n s.tick.now (u.putBlockSize e ⟨n, more⟩)) e
    exact ((h1.trans h2).trans h3).at (by simpa using Ne.symm hne) uf hyb
  · simpa [State.leaveTransfer] using uw
  · simp only [State.leaveTransfer, State.putReady_now, State.putBusy_now, d2, un]
    omega
  · simp only [State.leaveTransfer, State.putReady_slept, State.putBusy_slept, d3, us]
  · simp only [State.leaveTransfer, State.putReady_clockReads, State.putBusy_clockReads, d4, uc]
    split <;> omega

/-- START_SEND without a recipient: the flags pulse and the clock is read once (R185). -/
theorem startSend_alone {s : State} {e : EndpointId} {x : Endpoint} (hx : s.endpoint? e = some x)
    (hxb : x.bgAgent = false) (hxr : x.recipient = none) :
    ∃ t, startSend e s = .next t ∧ Moved s t ∧ EndpointsKept s t [e] ∧
      t.endpoint? e = some { x with busy := false, ready := true } ∧ t.wire = s.wire ∧ t.slept = s.slept ∧
      t.clockReads = s.clockReads + 1 := by
  have hx1 : (s.tick.enterTransfer e).endpoint? e = some { x with busy := true, ready := false } := by
    have ht : s.tick.endpoint? e = some x := hx
    exact enterTransfer_at ht hxb
  have hrec : (s.tick.enterTransfer e).recipientOf e = none := by
    unfold State.recipientOf
    rw [hx1]
    exact hxr
  have heq : startSend e s = .next ((s.tick.enterTransfer e).leaveTransfer e) := by
    unfold startSend
    rw [withEndpoint_some _ hx]
    simp only [hrec]
  have h1 : EndpointsKept s (s.tick.enterTransfer e) [e] :=
    (EndpointsKept.tick s [e]).trans (EndpointsKept.enterTransfer _ e)
  have hx2 := leaveTransfer_at hx1 hxb
  refine ⟨_, heq, (startSend_frame heq).1, h1.trans (EndpointsKept.leaveTransfer _ e), hx2, ?_, ?_, ?_⟩
  all_goals simp [State.leaveTransfer, State.enterTransfer]

/-- START_READ answers nothing without a recipient, and the recipient's START_SEND with one (R186). -/
theorem startRead_eq_next {e : EndpointId} {s t : State} :
    startRead e s = .next t ↔
      ∃ x, s.endpoint? e = some x ∧
        ((x.recipient = none ∧ t = s) ∨ ∃ f, x.recipient = some f ∧ startSend f s = .next t) := by
  unfold startRead
  rw [withEndpoint_eq_next]
  constructor
  · rintro ⟨x, hx, h⟩
    refine ⟨x, hx, ?_⟩
    split at h <;> rename_i hf
    · exact .inl ⟨hf, (Host.Outcome.next.inj h).symm⟩
    · exact .inr ⟨_, hf, h⟩
  · rintro ⟨x, hx, ⟨hf, rfl⟩ | ⟨f, hf, h⟩⟩
    · exact ⟨x, hx, by simp only [hf]⟩
    · exact ⟨x, hx, by simp only [hf, h]⟩

/-- What START_READ leaves unchanged, in every case. -/
theorem startRead_moved {e : EndpointId} {s t : State} (h : startRead e s = .next t) : Moved s t := by
  obtain ⟨x, -, ⟨-, rfl⟩ | ⟨f, -, h⟩⟩ := startRead_eq_next.mp h
  · exact Moved.refl _
  · exact (startSend_frame h).1

/-! ## The receive loop (R189) -/

/-- One round answers exactly when the read answers and the peer still exists. -/
theorem recvRound_eq_next {e peer : EndpointId} {s t : State} {payload : Bytes} {more : Bool} :
    recvRound e peer s = .next (t, payload, more) ↔
      ∃ u y, startRead e { s with wire := none } = .next u ∧ t = u.interleave ∧ t.endpoint? peer = some y ∧
        payload = deliveredTo e y.blockSize.len u ∧ more = y.blockSize.cont := by
  unfold recvRound
  simp only [andThen_eq_next, withEndpoint_eq_next, Host.Outcome.next.injEq, Prod.mk.injEq]
  constructor
  · rintro ⟨u, hu, y, hy, rfl, rfl, rfl⟩
    exact ⟨u, y, hu, rfl, hy, rfl, rfl⟩
  · rintro ⟨u, y, hu, rfl, hy, rfl, rfl⟩
    exact ⟨u, hu, y, hy, rfl, rfl, rfl⟩

/-- What a round leaves unchanged, in every case. -/
theorem recvRound_moved {e peer : EndpointId} {s t : State} {payload : Bytes} {more : Bool}
    (h : recvRound e peer s = .next (t, payload, more)) : Moved s t := by
  obtain ⟨u, y, hu, rfl, -⟩ := recvRound_eq_next.mp h
  have h0 : Moved s { s with wire := none } := by constructor <;> rfl
  exact (h0.trans (startRead_moved hu)).trans (Moved.interleave u)

/-- A turn goes on exactly when its iteration answers with the peer's flag set. -/
theorem recvTurn_eq_inr {e peer : EndpointId} {buf b : Bytes} {s t : State} :
    recvTurn e peer buf s = .inr (b, t) ↔ ∃ payload, recvRound e peer s = .next (t, payload, true) ∧ b = buf ++ payload := by
  unfold recvTurn
  split <;> rename_i hr
  · rename_i u payload more
    cases more <;> simp [hr, eq_comm, and_comm]
  · simp [hr]
  · simp [hr]

/-- A turn ends the loop with a message exactly when its iteration answers with the peer's flag clear. -/
theorem recvTurn_eq_inl_next {e peer : EndpointId} {buf : Bytes} {s t : State} :
    recvTurn e peer buf s = .inl (.next t) ↔
      ∃ u payload, recvRound e peer s = .next (u, payload, false) ∧ t = u.respond (.bytes (buf ++ payload)) := by
  unfold recvTurn
  split <;> rename_i hr
  · rename_i u payload more
    cases more <;> simp [hr, eq_comm]
  · simp [hr]
  · simp [hr]

/-- The loop has an outcome exactly where some number of turns ends it, and then that outcome (R189, R300). -/
theorem recvLoop_eq_some_iff {e peer : EndpointId} {buf : Bytes} {s : State} {r : Res State} :
    recvLoop e peer buf s = some r ↔ ∃ turns, recvWithin turns e peer buf s = some r := by
  constructor
  · refine recvLoop.partial_correctness e peer (fun buf s r => ∃ turns, recvWithin turns e peer buf s = some r) ?_ buf s r
    intro loop ih buf s r h
    cases ht : recvTurn e peer buf s <;> rw [ht] at h
    · exact ⟨1, by rw [recvWithin, ht]; exact h⟩
    · obtain ⟨turns, hw⟩ := ih _ _ _ h
      exact ⟨turns + 1, by rw [recvWithin, ht]; exact hw⟩
  · rintro ⟨turns, h⟩
    induction turns generalizing buf s with
    | zero => exact nomatch h
    | succ turns ih =>
      rw [recvWithin] at h
      rw [recvLoop]
      cases ht : recvTurn e peer buf s <;> rw [ht] at h
      · exact h
      · exact ih h

/-- A loop all of whose states go on never ends (R300). -/
theorem recvLoop_eq_none {Inv : State → Prop} {e peer : EndpointId} {buf : Bytes} {s : State} (hs : Inv s)
    (step : ∀ s, Inv s → ∃ t payload, recvRound e peer s = .next (t, payload, true) ∧ Inv t) :
    recvLoop e peer buf s = none := by
  refine Option.eq_none_iff_forall_ne_some.mpr fun r hr => ?_
  obtain ⟨turns, h⟩ := recvLoop_eq_some_iff.mp hr
  clear hr
  induction turns generalizing buf s with
  | zero => exact nomatch h
  | succ turns ih =>
    obtain ⟨t, payload, hround, ht⟩ := step s hs
    rw [recvWithin, recvTurn_eq_inr.mpr ⟨payload, hround, rfl⟩] at h
    exact ih ht h

/-- Against a peer whose flag is set and stays so, the loop never ends (R300). -/
theorem recvLoop_flagStays {e peer : EndpointId} {x : Endpoint} {buf : Bytes} {s : State} (hx : s.endpoint? e = some x)
    (hr : x.recipient = some peer) (hp : flagStays peer s = true) : recvLoop e peer buf s = none := by
  refine recvLoop_eq_none (Inv := fun s => (∃ x, s.endpoint? e = some x ∧ x.recipient = some peer) ∧
    ∃ y, s.endpoint? peer = some y ∧ y.recipient = none ∧ y.bgAgent = false ∧ y.blockSize.cont = true) ?_ ?_
  · refine ⟨⟨x, hx, hr⟩, ?_⟩
    unfold flagStays at hp
    split at hp
    · exact nomatch hp
    · rename_i y hy
      exact ⟨y, hy, by simpa [and_assoc] using hp⟩
  · rintro s ⟨⟨x, hx, hr⟩, y, hy, hyr, hyb, hyc⟩
    have hne : e ≠ peer := by
      rintro rfl
      rw [hx, Option.some.injEq] at hy
      rw [hy, hyr] at hr
      exact nomatch hr
    obtain ⟨t, ht, -, hk, hat, -⟩ := startSend_alone (s := { s with wire := none }) hy hyb hyr
    have hat' := interleave_at hat hyb
    obtain ⟨u, hu, hmade, -⟩ := ((hk.trans ((EndpointsKept.interleave t [peer]))) e (by simpa using hne)).2 x hx
    refine ⟨t.interleave, _, recvRound_eq_next.mpr ⟨t, _, ?_, rfl, hat', rfl, hyc.symm⟩, ⟨u, hu, ?_⟩, _, hat', hyr, hyb, hyc⟩
    · exact startRead_eq_next.mpr ⟨x, hx, .inr ⟨peer, hr, ht⟩⟩
    · rw [hmade]
      exact hr

/-- What the loop of a RECV_MESSAGE does, said once: its outcome where it ends, stuck where it never does (R189, R300). -/
theorem recvMessage_eq {e peer : EndpointId} {x : Endpoint} {s : State} (hx : s.endpoint? e = some x)
    (hr : x.recipient = some peer) :
    recvMessage e peer s = (recvLoop e peer [] s).getD (.fault (.neverReturns (.flag peer))) := by
  unfold recvMessage
  split
  · rename_i hp
    rw [recvLoop_flagStays hx hr hp]
    rfl
  · split
    · rename_i r hw
      rw [recvLoop_eq_some_iff.mpr ⟨_, hw⟩]
      rfl
    · rfl

/-- A loop that ends with a message answers it; the rest of the state moves as in a transfer. -/
theorem recvLoop_moved {e peer : EndpointId} {buf : Bytes} {s t : State} (h : recvLoop e peer buf s = some (.next t)) :
    ∃ u b, Moved s u ∧ t = u.respond (.bytes b) := by
  obtain ⟨turns, hw⟩ := recvLoop_eq_some_iff.mp h
  clear h
  induction turns generalizing buf s with
  | zero => exact nomatch hw
  | succ turns ih =>
    rw [recvWithin] at hw
    cases ht : recvTurn e peer buf s <;> rw [ht] at hw
    · obtain rfl := Option.some.inj hw
      obtain ⟨u, payload, hround, rfl⟩ := recvTurn_eq_inl_next.mp ht
      exact ⟨u, _, recvRound_moved hround, rfl⟩
    · obtain ⟨payload, hround, -⟩ := recvTurn_eq_inr.mp ht
      obtain ⟨u, b, hm, rfl⟩ := ih hw
      exact ⟨u, b, (recvRound_moved hround).trans hm, rfl⟩

/-! ## The registers of a serial port -/

/-- What a read of a port register leaves unchanged: everything but the agents' script and what agents write (R198, R200). -/
theorem readPort_frame {r : PortRegister} {s t : State} {b : Byte} (h : readPort r s = .next (t, b)) :
    Moved s t ∧ EndpointsKept s t [] := by
  have pair : ∀ {e v}, pairView e s = .next (t, v) → Moved s t ∧ EndpointsKept s t [] := by
    intro e v h
    unfold pairView at h
    obtain ⟨x, -, h⟩ := withEndpoint_eq_next.mp h
    split at h
    · obtain ⟨rfl, -⟩ := Prod.mk.inj (Host.Outcome.next.inj h)
      exact ⟨Moved.refl _, EndpointsKept.refl _ _⟩
    · obtain ⟨y, -, h⟩ := withEndpoint_eq_next.mp h
      obtain ⟨rfl, -⟩ := Prod.mk.inj (Host.Outcome.next.inj h)
      exact ⟨Moved.interleave s, EndpointsKept.interleave s []⟩
  unfold readPort at h
  split at h
  · unfold readStatus at h
    obtain ⟨x, -, h⟩ := withEndpoint_eq_next.mp h
    obtain ⟨rfl, -⟩ := Prod.mk.inj (Host.Outcome.next.inj h)
    exact
      ⟨(Moved.interleave s).trans (Moved.interleave _),
        (EndpointsKept.interleave s []).trans (EndpointsKept.interleave _ [])⟩
  · obtain ⟨⟨u, v⟩, hv, h⟩ := andThen_eq_next.mp h
    obtain ⟨rfl, -⟩ := Prod.mk.inj (Host.Outcome.next.inj h)
    exact pair hv
  · obtain ⟨⟨u, v⟩, hv, h⟩ := andThen_eq_next.mp h
    obtain ⟨rfl, -⟩ := Prod.mk.inj (Host.Outcome.next.inj h)
    exact pair hv

/-- What a write of a port register leaves unchanged, in every case (R199, R201). -/
theorem writePort_moved {r : PortRegister} {v : Byte} {s t : State} (h : writePort r v s = .next t) : Moved s t := by
  have rewrite : ∀ {e g}, rewriteBlockSize e g s = .next t → Moved s t := by
    intro e g h
    unfold rewriteBlockSize at h
    obtain ⟨x, -, h⟩ := withEndpoint_eq_next.mp h
    obtain rfl := Host.Outcome.next.inj h
    exact (Moved.interleave s).trans (Moved.putBlockSize ..)
  unfold writePort at h
  split at h
  · unfold writeStatus at h
    obtain ⟨x, -, h⟩ := withEndpoint_eq_next.mp h
    rename_i e _
    have h0 : Moved s (s.putSendmode e (directionBit v)) := Moved.modifyEndpoint s e _
    simp only at h
    split at h
    · split at h
      · exact h0.trans (startSend_frame h).1
      · exact h0.trans (startRead_moved h)
    · obtain rfl := Host.Outcome.next.inj h
      exact h0
  · exact rewrite h
  · exact rewrite h

end Sys2Proof.Machine
end

