-- ==== Sys2Proof/Laws/Bus.lean ====
section
/-! SUPPORT. What a call on a card can do (Machine/Bus.lean) and what the removal of a card does
(Machine/Configure.lean), each said once. -/

namespace Sys2Proof.Machine

/-! ## The declared table -/

theorem SameTable.refl (s : State) : SameTable s s := fun _ => rfl

theorem SameTable.trans {s t u : State} (h1 : SameTable s t) (h2 : SameTable t u) : SameTable s u :=
  fun k => (h2 k).trans (h1 k)

/-- An operation that leaves the table alone. -/
theorem SameTable.of_table {s t : State} (h : t.peripheralTable = s.peripheralTable) : SameTable s t := by
  intro k
  unfold State.slot
  rw [h]

/-- A card's own state changes behind its entry. -/
theorem SameTable.setCard {s : State} {k : Slot} {ent : Entry} (h : s.slot k = some ent) {c : Card}
    (hc : c.kind = ent.card.kind) : SameTable s (s.setCard k ent c) := by
  intro j
  unfold State.setCard
  by_cases hj : j = k
  · subst hj
    rw [State.slot_setSlot_same, h]
    simp only [Option.map_some, Entry.declared, hc]
  · rw [State.slot_setSlot_other s _ hj]

@[simp] theorem State.slot_note (s : State) (c : PeriCall) (k : Slot) : (s.note c).slot k = s.slot k := rfl
@[simp] theorem State.slot_respond (s : State) (r : Response) (k : Slot) : (s.respond r).slot k = s.slot k := rfl
@[simp] theorem State.slot_writeUser (s : State) (a : Nat) (v : Byte) (k : Slot) : (s.writeUser a v).slot k = s.slot k := rfl

/-! ## Calls on cards -/

/-- `peek` is noted once; the card may have changed its own state (R135). -/
theorem cardPeek_next {k : Slot} {ent : Entry} {off : Nat} {s t : State} {v : Option Byte}
    (h : cardPeek k ent off s = .next (t, v)) :
    t = s.note (.peek k off) ∨
      ∃ c, c.kind = ent.card.kind ∧ t = (s.note (.peek k off)).setCard k ent c := by
  unfold cardPeek at h
  cases hc : ent.card with
  | reg ram regs =>
    simp only [hc] at h
    exact .inl (Prod.mk.inj (Host.Outcome.next.inj h)).1.symm
  | blank =>
    simp only [hc] at h
    exact .inl (Prod.mk.inj (Host.Outcome.next.inj h)).1.symm
  | vendor id token =>
    simp only [hc] at h
    split at h
    · exact .inr ⟨_, by rfl, (Prod.mk.inj (Host.Outcome.next.inj h)).1.symm⟩
    · exact absurd h (by simp)

/-- `poke` is noted once; the card may have changed its own state (R136). -/
theorem cardPoke_next {k : Slot} {ent : Entry} {off : Nat} {byte : Byte} {s t : State}
    (h : cardPoke k ent off byte s = .next t) :
    t = s.note (.poke k off byte) ∨
      ∃ c, c.kind = ent.card.kind ∧ t = (s.note (.poke k off byte)).setCard k ent c := by
  unfold cardPoke at h
  cases hc : ent.card with
  | reg ram regs =>
    simp only [hc] at h
    exact .inr ⟨_, by rfl, (Host.Outcome.next.inj h).symm⟩
  | blank =>
    simp only [hc] at h
    exact .inl (Host.Outcome.next.inj h).symm
  | vendor id token =>
    simp only [hc] at h
    split at h
    · exact .inr ⟨_, by rfl, (Host.Outcome.next.inj h).symm⟩
    · exact absurd h (by simp)

/-- The card's own part of `mmio_read` changes at most the card's own state. -/
theorem cardRegisterRead_next {j : Slot} {ent : Entry} {m : Nat} {s t : State} {v : Option Byte}
    (h : cardRegisterRead j ent m s = .next (t, v)) : t = s ∨ ∃ c, c.kind = ent.card.kind ∧ t = s.setCard j ent c := by
  unfold cardRegisterRead at h
  split at h <;> rename_i hc
  · exact .inl (Prod.mk.inj (Host.Outcome.next.inj h)).1.symm
  · exact .inl (Prod.mk.inj (Host.Outcome.next.inj h)).1.symm
  · split at h
    · exact .inr ⟨_, by rw [hc]; rfl, (Prod.mk.inj (Host.Outcome.next.inj h)).1.symm⟩
    · exact absurd h (by simp)

/-- The card's own part of `mmio_write` changes at most the card's own state. -/
theorem cardRegisterWrite_next {j : Slot} {ent : Entry} {m : Nat} {byte : Byte} {s t : State}
    (h : cardRegisterWrite j ent m byte s = .next t) : t = s ∨ ∃ c, c.kind = ent.card.kind ∧ t = s.setCard j ent c := by
  unfold cardRegisterWrite at h
  split at h <;> rename_i hc
  · exact .inr ⟨_, by rw [hc]; rfl, (Host.Outcome.next.inj h).symm⟩
  · exact .inl (Host.Outcome.next.inj h).symm
  · split at h
    · exact .inr ⟨_, by rw [hc]; rfl, (Host.Outcome.next.inj h).symm⟩
    · exact absurd h (by simp)

/-- `mmio_read` is noted once; the card may have changed its own state; then a port register may have been read (R137, R76). -/
theorem cardMmioRead_next {j : Slot} {ent : Entry} {m : Nat} {s t : State} {v : Option Byte}
    (h : cardMmioRead j ent m s = .next (t, v)) :
    ∃ u, (u = s.note (.mmioRead j m) ∨ ∃ c, c.kind = ent.card.kind ∧ u = (s.note (.mmioRead j m)).setCard j ent c) ∧
      (t = u ∨ ∃ r b, readPort r u = .next (t, b) ∧ v = some b) := by
  unfold cardMmioRead at h
  obtain ⟨⟨u, o⟩, hu, h⟩ := andThen_eq_next.mp h
  refine ⟨u, cardRegisterRead_next hu, ?_⟩
  simp only at h
  split at h
  · obtain ⟨⟨w, b⟩, hr, h⟩ := andThen_eq_next.mp h
    obtain ⟨rfl, rfl⟩ := Prod.mk.inj (Host.Outcome.next.inj h)
    exact .inr ⟨_, b, hr, rfl⟩
  · exact .inl (Prod.mk.inj (Host.Outcome.next.inj h)).1.symm

/-- `mmio_write` is noted once; the card may have changed its own state; then a port register may have been written (R138,
R76). -/
theorem cardMmioWrite_next {j : Slot} {ent : Entry} {m : Nat} {byte : Byte} {s t : State}
    (h : cardMmioWrite j ent m byte s = .next t) :
    ∃ u, (u = s.note (.mmioWrite j m byte) ∨
        ∃ c, c.kind = ent.card.kind ∧ u = (s.note (.mmioWrite j m byte)).setCard j ent c) ∧
      (t = u ∨ ∃ r, writePort r byte u = .next t) := by
  unfold cardMmioWrite at h
  obtain ⟨u, hu, h⟩ := andThen_eq_next.mp h
  refine ⟨u, cardRegisterWrite_next hu, ?_⟩
  split at h
  · exact .inr ⟨_, h⟩
  · exact .inl (Host.Outcome.next.inj h).symm

/-! ## READ and WRITE by target (R132) -/

variable {s : State} {addr : Int}

/-- A READ in an MMIO window of a card with registers calls `mmio_read` at the mirrored offset. -/
theorem execRead_mmio {j : Slot} {w : Nat} {ent : Entry} (hs : s.runState = .running)
    (hd : decodeAddress s.memsize addr = .mmio j w) (he : s.slot j = some ent) (hm : ent.mmioSize ≠ 0) :
    execRead addr s = dataAfter (cardMmioRead j ent (w % ent.mmioSize) s) := by
  unfold execRead requireRunning
  rw [hs, hd]
  simp only [readMmio, he]
  exact if_neg hm

/-- A WRITE in an MMIO window of a card with registers calls `mmio_write` at the mirrored offset. -/
theorem execWrite_mmio {j : Slot} {w : Nat} {ent : Entry} (v : Byte) (hs : s.runState = .running)
    (hd : decodeAddress s.memsize addr = .mmio j w) (he : s.slot j = some ent) (hm : ent.mmioSize ≠ 0) :
    execWrite addr v s = ackAfter (cardMmioWrite j ent (w % ent.mmioSize) v s) := by
  unfold execWrite requireRunning
  rw [hs, hd]
  simp only [writeMmio, he]
  exact if_neg hm

/-- A READ inside a declared RAM window calls `peek`. -/
theorem execRead_ram {k : Slot} {off : Nat} {ent : Entry} (hs : s.runState = .running)
    (hd : decodeAddress s.memsize addr = .ram k off) (he : s.slot k = some ent) (ho : off < ent.periMemSize) :
    execRead addr s = dataAfter (cardPeek k ent off s) := by
  unfold execRead requireRunning
  rw [hs, hd]
  simp only [readRam, he]
  exact if_neg (Nat.not_le.mpr ho)

/-- A WRITE inside a declared RAM window calls `poke`. -/
theorem execWrite_ram {k : Slot} {off : Nat} {ent : Entry} (v : Byte) (hs : s.runState = .running)
    (hd : decodeAddress s.memsize addr = .ram k off) (he : s.slot k = some ent) (ho : off < ent.periMemSize) :
    execWrite addr v s = ackAfter (cardPoke k ent off v s) := by
  unfold execWrite requireRunning
  rw [hs, hd]
  simp only [writeRam, he]
  exact if_neg (Nat.not_le.mpr ho)

/-! ## A card leaves its slot (R139 to R141) -/

/-- An empty slot stays as it is; a card is disposed of once, and its slot and the endpoints it owned are gone. -/
theorem disposeSlot_next {k : Slot} {s t : State} (h : disposeSlot k s = .next t) :
    (s.slot k = none ∧ t = s) ∨
    ((s.slot k).isSome ∧
      t = { (s.note (.dispose k)).setSlot k none with
        endpoints := s.endpoints.filter (fun p => p.2.owner != some k) }) := by
  unfold disposeSlot at h
  split at h
  · rename_i hk
    exact .inl ⟨hk, (Host.Outcome.next.inj h).symm⟩
  · rename_i ent hk
    refine .inr ⟨by simp [hk], ?_⟩
    simp only at h
    split at h
    · exact (Host.Outcome.next.inj h).symm
    · exact (Host.Outcome.next.inj h).symm
    · split at h
      · exact (Host.Outcome.next.inj h).symm
      · exact absurd h (by simp)

end Sys2Proof.Machine
end

