-- ==== Sys2Proof/Laws/Operands.lean ====
section
/-! SUPPORT. The small laws of the operand forms: address words, the command text and its tail, the
allocator's bitset and its first fit. -/

namespace Sys2Proof

/-! ## Address words (R93) -/

/-- An integer that a word carries comes back from its word (R93). -/
theorem intOfWord_wordOfInt {n : Int} (h : fitsWord n = true) : intOfWord (wordOfInt n) = n := by
  simp only [fitsWord, decide_eq_true_eq] at h
  unfold intOfWord wordOfInt
  rw [BitVec.toInt_ofInt]
  exact Int.bmod_eq_of_le (by omega) (by omega)

/-- The word of a word's integer is the word (R93). -/
theorem wordOfInt_intOfWord (A : BitVec 32) : wordOfInt (intOfWord A) = A := by
  unfold intOfWord wordOfInt
  exact BitVec.ofInt_toInt

/-! ## Command payloads (R103) -/

/-- The first byte that is not dropped fails the test. -/
theorem dropWhile_head {p : Byte → Bool} {l rest : Bytes} {b : Byte} (h : l.dropWhile p = b :: rest) : p b = false := by
  induction l with
  | nil => simp at h
  | cons a l ih =>
    rw [List.dropWhile_cons] at h
    split at h
    · exact ih h
    · rename_i hp
      obtain ⟨rfl, -⟩ := List.cons.inj h
      simpa using hp

/-- A payload is its command text and its tail. -/
theorem commandText_append_tail (payload : Bytes) : commandText payload ++ (commandTail payload).bytes = payload := by
  have h : payload = commandText payload ++ payload.dropWhile (· != Config.eob) :=
    List.takeWhile_append_dropWhile.symm
  have ht : (commandTail payload).bytes = payload.dropWhile (· != Config.eob) := by
    unfold commandTail
    split
    · rename_i he
      rw [he]
      rfl
    · rename_i b rest he
      rw [he]
      have hb : (b != Config.eob) = false := dropWhile_head (p := (· != Config.eob)) he
      have hb' : b = Config.eob := by simpa using hb
      rw [hb']
      rfl
  rw [ht]
  exact h.symm

/-- The text of a command without 0x17, followed by a tail. -/
theorem commandText_of_text {text : Bytes} (h : text.all (· != Config.eob) = true) (tail : Tail) :
    commandText (text ++ tail.bytes) = text := by
  unfold commandText
  rw [List.all_eq_true] at h
  rw [List.takeWhile_append_of_pos h]
  cases tail <;> simp [Tail.bytes]

/-- The tail that follows a command text without 0x17. -/
theorem commandTail_of_text {text : Bytes} (h : text.all (· != Config.eob) = true) (tail : Tail) :
    commandTail (text ++ tail.bytes) = tail := by
  unfold commandTail
  rw [List.all_eq_true] at h
  rw [List.dropWhile_append_of_pos h]
  cases tail <;> simp [Tail.bytes]

/-! ## Well-formedness and the keywords (R104) -/

@[simp] theorem firstFailing_nil : firstFailing [] = none := rfl

/-- A list of checks passes exactly when its first check and the others pass. -/
@[simp] theorem firstFailing_cons (b : Bool) (why : IllFormed) (rest : List (Bool × IllFormed)) :
    firstFailing ((b, why) :: rest) = none ↔ b = true ∧ firstFailing rest = none := by
  cases b <;> simp [firstFailing]

/-- A command is well formed exactly when its argument has no 0x17 and its payload fits one block. -/
theorem checkCommand_eq_none {len : Nat} {arg : Bytes} {tail : Tail} :
    checkCommand len arg tail = none ↔
      Config.eob ∉ arg ∧ len + arg.length + tail.bytes.length ≤ Config.block := by
  unfold checkCommand
  rw [firstFailing_cons, firstFailing_cons]
  simp only [List.all_eq_true, bne_iff_ne, ne_eq, decide_eq_true_eq, firstFailing_nil, and_true]
  constructor
  · rintro ⟨h1, h2⟩
    exact ⟨fun hm => h1 _ hm rfl, h2⟩
  · rintro ⟨h1, h2⟩
    exact ⟨fun b hb he => h1 (he ▸ hb), h2⟩

/-- A keyword, alone or with the argument it takes, is selected by its own text (R253). -/
theorem selectKeyword_bytes (k : Keyword) (arg : Bytes) (h : k ∈ plainKeywords → arg = []) :
    selectKeyword (k.bytes ++ arg) = some (k, arg) := by
  cases k
  all_goals first
    | (have ha := h (by decide); subst ha; decide)
    | (simp only [selectKeyword, plainKeywords, argumentKeywords, Keyword.bytes, List.find?, List.cons_append,
        List.nil_append, List.isPrefixOf]
       simp)

namespace Machine

/-! ## The allocator's bitset (R161, R162) -/

theorem setRun_length (bits : List Bool) (i n : Nat) (v : Bool) : (setRun bits i n v).length = bits.length := by
  simp [setRun]

/-- Each bit after a run was written. -/
theorem setRun_getElem? (bits : List Bool) (i n : Nat) (v : Bool) (j : Nat) :
    (setRun bits i n v)[j]? = if i ≤ j ∧ j < i + n then (bits[j]?).map (fun _ => v) else bits[j]? := by
  unfold setRun
  rw [List.getElem?_mapIdx]
  split
  · cases bits[j]? <;> simp [*]
  · cases bits[j]? <;> simp [*]

/-- A run is clear exactly when none of its bits is set. -/
theorem clearRun_iff (bits : List Bool) (i n : Nat) :
    clearRun bits i n = true ↔ ∀ j, i ≤ j → j < i + n → bits[j]? ≠ some true := by
  unfold clearRun
  rw [List.all_eq_true]
  constructor
  · intro h j h1 h2 hj
    have hm : (true : Bool) ∈ (bits.drop i).take n := by
      rw [List.mem_take_iff_getElem]
      obtain ⟨hl, hv⟩ := List.getElem?_eq_some_iff.mp hj
      refine ⟨j - i, by simp only [List.length_drop]; omega, ?_⟩
      rw [List.getElem_drop]
      simp only [Nat.add_sub_cancel' h1, hv]
    simpa using h true hm
  · intro h b hb
    rw [List.mem_take_iff_getElem] at hb
    obtain ⟨k, hk, rfl⟩ := hb
    rw [List.length_drop] at hk
    rw [List.getElem_drop]
    have := h (i + k) (by omega) (by omega)
    rw [List.getElem?_eq_getElem (by omega)] at this
    simpa using this

/-- First fit answers the least index whose run lies inside the bitset and is clear (R162). -/
theorem firstFit_eq_some {bits : List Bool} {n i : Nat} :
    firstFit bits n = some i ↔
      i + n ≤ bits.length ∧ clearRun bits i n = true ∧
        ∀ j, j < i → clearRun bits j n = false := by
  unfold firstFit
  rw [List.find?_range_eq_some]
  simp only [Bool.not_eq_true', List.mem_range]
  constructor
  · rintro ⟨h1, h2, h3⟩
    exact ⟨by omega, h1, h3⟩
  · rintro ⟨h1, h2, h3⟩
    exact ⟨h2, by omega, h3⟩

/-- First fit answers nothing exactly when no run of the length is clear (R162). -/
theorem firstFit_eq_none {bits : List Bool} {n : Nat} :
    firstFit bits n = none ↔ ∀ i, i + n ≤ bits.length → clearRun bits i n = false := by
  unfold firstFit
  rw [List.find?_range_eq_none]
  simp only [Bool.not_eq_true']
  constructor
  · intro h i hi
    exact h i (by omega)
  · intro h i hi
    exact h i (by omega)

end Machine

end Sys2Proof
end

