-- ==== Sys2Proof/Laws/Device.lean ====
section
/-! SUPPORT. The cases of the shared operations of the command device (Machine/Device.lean), each said once. -/

namespace Sys2Proof.Machine

@[simp] theorem CommandDevice.st_fst (d : CommandDevice) (c : Int) : (d.st c).1 = d := rfl
@[simp] theorem CommandDevice.st_snd (d : CommandDevice) (c : Int) : (d.st c).2 = some c := rfl

@[simp] theorem CommandDevice.stage_session (d : CommandDevice) (bytes : Bytes) :
    (d.stage bytes).session = { d.session with sendBuffer := bytes, sendPos := 0 } := rfl
@[simp] theorem CommandDevice.stage_store (d : CommandDevice) (bytes : Bytes) : (d.stage bytes).store = d.store := rfl
@[simp] theorem CommandDevice.putStore_session (d : CommandDevice) (s : Store) : (d.putStore s).session = d.session := rfl
@[simp] theorem CommandDevice.putStore_store (d : CommandDevice) (s : Store) : (d.putStore s).store = s := rfl
@[simp] theorem CommandDevice.opened_store (d : CommandDevice) (m : OpenMode) : (d.opened m).store = d.store := rfl

/-- While accumulating, a payload is data (R232). -/
theorem consumeWith_data {run : RunCommand} {payload : Bytes} {status : Int} {d : CommandDevice}
    (h : d.session.accumulating = true) : consumeWith run payload status d = acceptData payload d := by
  simp [consumeWith, h]

/-- Otherwise its text is a command (R232). -/
theorem consumeWith_text {run : RunCommand} {payload : Bytes} {status : Int} {d : CommandDevice}
    (h : d.session.accumulating = false) : consumeWith run payload status d = run (commandText payload) status d := by
  simp [consumeWith, h]

/-- `need_path` without a path (status 135). -/
theorem CommandDevice.needPath_none {d : CommandDevice} {k : Path → DeviceResult} (h : d.session.curPath = none) :
    d.needPath k = d.st stNoHandle := by
  simp [CommandDevice.needPath, h]

/-- `need_path` with the implied path. -/
theorem CommandDevice.needPath_some {d : CommandDevice} {k : Path → DeviceResult} {p : Path}
    (h : d.session.curPath = some p) : d.needPath k = k p := by
  simp [CommandDevice.needPath, h]

/-- A read-only store refuses every change (status 132). -/
theorem CommandDevice.needWritable_readOnly {d : CommandDevice} {r : DeviceResult} (h : d.store.readOnly = true) :
    d.needWritable r = d.st stReadOnly := by
  simp [CommandDevice.needWritable, h]

/-- A writable store. -/
theorem CommandDevice.needWritable_writable {d : CommandDevice} {r : DeviceResult} (h : d.store.readOnly = false) :
    d.needWritable r = r := by
  simp [CommandDevice.needWritable, h]

/-- OPEN with an argument that breaks the grammar (status 128). -/
theorem openWith_illegal {arg : Bytes} {d : CommandDevice} {k : Path → CommandDevice → DeviceResult}
    (h : parseOpen arg = none) : openWith arg d k = d.st stIllegal := by
  simp [openWith, h]

/-- OPEN with a handle already open (status 130). -/
theorem openWith_alreadyOpen {arg : Bytes} {d : CommandDevice} {k : Path → CommandDevice → DeviceResult} {raw : Bytes}
    {drive : Option Nat} (h : parseOpen arg = some (raw, drive)) (ho : d.session.fileOpen = true) :
    openWith arg d k = d.st stAlreadyOpen := by
  simp [openWith, h, ho]

/-- OPEN with a path, before its checks of the store (R239 to R241). -/
theorem openWith_path {arg : Bytes} {d : CommandDevice} {k : Path → CommandDevice → DeviceResult} {raw : Bytes}
    {drive : Option Nat} (h : parseOpen arg = some (raw, drive)) (ho : d.session.fileOpen = false) :
    openWith arg d k = k (sanitise d.forbidden raw) (d.withPath (sanitise d.forbidden raw) drive) := by
  simp [openWith, h, ho, CommandDevice.withPath]

/-- The chunk a command device sends (R254). -/
theorem produceCommand_fst (d : CommandDevice) :
    (produceCommand d).1 = (d.session.sendBuffer.drop d.session.sendPos).take Config.block := by
  unfold produceCommand
  simp only
  rw [← List.length_drop, ← List.take_eq_take_min]

end Sys2Proof.Machine
end

