-- ==== Sys2Proof/Laws/Commands.lean ====
section
/-! SUPPORT. What the WRITEOUT of a payload into a command device leaves (Machine/Commands.lean), said once for every
command. -/

namespace Sys2Proof.Machine

/-- The whole WRITEOUT of a payload of at most one block into a command device, from what its receive hook makes of it. -/
theorem writeoutWith_device {run : RunCommand} {s : State} {e : EndpointId} {x : Endpoint} {d : CommandDevice}
    {payload : Bytes} {r : DeviceResult} (h : Live s e x) (hd : x.device = .command d) (hl : payload.length ≤ Config.block)
    (hr : consumeWith run payload x.statusCode d = r) :
    ∃ t, ackAfter (writeoutWith run e payload s) = .next t ∧
      DeviceLeft s e x payload.length r.1 (r.2.getD x.statusCode) t := by
  obtain ⟨-, hx, hb⟩ := h
  have hc : ({ x with
      busy := true, ready := false, blockSize := ⟨min payload.length Config.block, x.blockSize.cont⟩ } :
        Endpoint).consumeBy run (payload.take Config.block) = some (.command r.1, r.2) := by
    rw [List.take_of_length_le hl]
    simp only [Endpoint.consumeBy, hd, hr]
  obtain ⟨t, ht, hm, hk, he, -⟩ := writeoutWith_at hx hb hc
  refine ⟨t.respond .ack, by rw [ackAfter, ht]; rfl, rfl, hm.linkFrame _, ?_, ?_⟩
  · exact hk.trans (EndpointsKept.of_endpoints [e] rfl)
  · rw [Nat.min_eq_left hl] at he
    exact ⟨_, by rw [State.endpoint?_respond, he]; rfl⟩

/-- A command operation on a device that awaits a command leaves what the command's rule makes of the text. -/
theorem commandTransfer_leaves {run : RunCommand} {s : State} {e : EndpointId} {x : Endpoint} {d : CommandDevice}
    {payload : Bytes} {r : DeviceResult} (h : AwaitsCommand s e x d) (hl : payload.length ≤ Config.block)
    (hr : run (commandText payload) x.statusCode d = r) :
    ∃ t, commandTransfer run e payload s = .next t ∧
      DeviceLeft s e x payload.length r.1 (r.2.getD x.statusCode) t := by
  obtain ⟨hlive, hd, ha⟩ := h
  have hr' : consumeWith run payload x.statusCode d = r := by rw [consumeWith_text ha, hr]
  obtain ⟨t, ht, hleft⟩ := writeoutWith_device hlive hd hl hr'
  refine ⟨t, ?_, hleft⟩
  rw [commandTransfer, requireRunning_eq_next]
  exact ⟨hlive.1, ht⟩

/-- The text of a command's payload (R103). -/
theorem commandText_commandPayload (k : Keyword) {arg : Bytes} (h : Config.eob ∉ arg) (tail : Tail) :
    commandText (commandPayload k arg tail) = k.bytes ++ arg := by
  refine commandText_of_text ?_ tail
  rw [List.all_eq_true]
  intro b hb
  rw [List.mem_append] at hb
  rcases hb with hb | hb
  · cases k <;> simp only [Keyword.bytes, List.mem_cons, List.not_mem_nil, or_false] at hb <;>
      rcases hb with rfl | rfl | rfl | rfl | rfl | rfl | rfl | rfl | rfl <;> decide
  · simp only [bne_iff_ne, ne_eq]
    rintro rfl
    exact h hb

end Sys2Proof.Machine
end

