-- ==== Sys2Proof/Tests/Slice0.lean ====
section
/-! SUPPORT. The model's own tests: an ill-formed term for every check, a word written out from spec/30_encoding.md for
every constructor, single steps whose expected results are the vectors of spec/95_test_vectors.md (named in the
docstrings), and for every statement a state and operands that meet its hypotheses. -/

namespace Sys2Proof.Tests

open Sys2Proof.Machine

/-! ## Well-formedness: each check refuses its ill-formed term -/

theorem test_addressWidth : (Instr.read 2147483648).check = some .addressWidth := by decide
theorem test_selfAttach : (Instr.attach 3 3).check = some .selfAttach := by decide
theorem test_slotRange : (Instr.remove 8).check = some .slotRange := by decide
theorem test_periMemSize : (Instr.install 1 .regCard 1048577 0 0).check = some .periMemSize := by decide
theorem test_mmioSize : (Instr.install 1 .regCard 0 131073 0).check = some .mmioSize := by decide
theorem test_interruptCount : (Instr.install 1 .regCard 0 0 (-1)).check = some .interruptCount := by decide
theorem test_terminatorInArgument : (Instr.cmdOpenr 0 [0x22, 0x17, 0x22] .absent).check = some .terminatorInArgument := by
  decide
theorem test_payloadLength : (Instr.cmdWrite 0 (List.replicate 4092 0x30) .absent).check = some .payloadLength := by
  decide +kernel

/-! ## Decoding: words written out from the tables of R91, R95 and R104 -/

/-- The selectors of R91, operands of zeros. -/
theorem test_selectors_bus_alloc :
    decodeTableWord 8 0x00 = some (.read 0) ∧ decodeTableWord 8 0x01 = some (.write 0 0) ∧
    decodeTableWord 8 0x10 = some (.malloc 0) ∧ decodeTableWord 8 0x11 = some (.free 0) := by decide
theorem test_selectors_link :
    decodeTableWord 8 0x20 = some (.attach 0 0) ∧ decodeTableWord 8 0x21 = some (.detach 0) ∧
    decodeTableWord 8 0x22 = some (.cable 0) ∧ decodeTableWord 8 0x23 = some (.startSend 0) ∧
    decodeTableWord 8 0x24 = some (.startRead 0) ∧ decodeTableWord 8 0x25 = some (.writeout 0 []) ∧
    decodeTableWord 8 0x26 = some (.hasNext 0) ∧ decodeTableWord 8 0x27 = some (.recvMessage 0) := by decide
theorem test_selectors_cfg :
    decodeTableWord 8 0x30 = some (.install 0 .regCard 0 0 0) ∧ decodeTableWord 8 0x31 = some (.remove 0) ∧
    decodeTableWord 8 0x32 = some .start ∧ decodeTableWord 8 0x33 = some .halt ∧
    decodeTableWord 8 0x34 = some .reset := by decide
/-- The other selectors select nothing (R109 (1)). -/
theorem test_selectors_other :
    ((List.range 256).filter (fun w => (decodeTableWord 8 w).isSome)).length = 17 := by decide +kernel

/-- Address words of the vectors of 95_test_vectors.md section 2 and their neighbours, one for each row of R95. -/
theorem test_addr_words :
    decodeTableWord 32 0x0000FFFF = some (.addrUser 0x00FFFF) ∧
    decodeTableWord 32 0xFFFFFFF0 = some (.addrMmio0 0x1FFF0) ∧
    decodeTableWord 32 0xFFFDFFEF = some (.addrMmio1 0x1FFEF) ∧
    decodeTableWord 32 0xFFFA0001 = some (.addrMmio2 0x00001) ∧
    decodeTableWord 32 0xFFF80001 = some (.addrMmio3 0x00001) ∧
    decodeTableWord 32 0xFFF60001 = some (.addrMmio4 0x00001) ∧
    decodeTableWord 32 0xFFF40001 = some (.addrMmio5 0x00001) ∧
    decodeTableWord 32 0xFFF20001 = some (.addrMmio6 0x00001) ∧
    decodeTableWord 32 0xFFF1FFFF = some (.addrMmio7 0x1FFFF) ∧
    decodeTableWord 32 0xFFEFFFFE = some (.addrRam1 0xFFFFE) ∧
    decodeTableWord 32 0xFFDFFFFF = some (.addrRam2 0xFFFFF) ∧
    decodeTableWord 32 0xFFC00002 = some (.addrRam3 0x00002) ∧
    decodeTableWord 32 0xFFB00002 = some (.addrRam4 0x00002) ∧
    decodeTableWord 32 0xFFA00002 = some (.addrRam5 0x00002) ∧
    decodeTableWord 32 0xFF900002 = some (.addrRam6 0x00002) ∧
    decodeTableWord 32 0xFF800000 = some (.addrRam7 0x00000) ∧
    decodeTableWord 32 0xFF7FFFFF = none ∧ decodeTableWord 32 0x00800000 = none := by decide

/-- The keyword bytes of R104. -/
theorem test_cmd_words_device :
    decodeTableWord 48 0x444556525354 = some (.cmdDevrst 0 .absent) ∧
    decodeTableWord 48 0x444556535455 = some (.cmdDevstu 0 .absent) ∧
    decodeTableWord 48 0x444556545950 = some (.cmdDevtyp 0 .absent) ∧
    decodeTableWord 48 0x4445564E414D = some (.cmdDevnam 0 .absent) := by decide
theorem test_cmd_words_file :
    decodeTableWord 40 0x4F50454E52 = some (.cmdOpenr 0 [] .absent) ∧
    decodeTableWord 40 0x4F50454E57 = some (.cmdOpenw 0 [] .absent) ∧
    decodeTableWord 40 0x4F50454E41 = some (.cmdOpena 0 [] .absent) ∧
    decodeTableWord 32 0x52454144 = some (.cmdRead 0 .absent) ∧
    decodeTableWord 40 0x5752495445 = some (.cmdWrite 0 [] .absent) ∧
    decodeTableWord 40 0x434C4F5345 = some (.cmdClose 0 .absent) := by decide
theorem test_cmd_words_system :
    decodeTableWord 48 0x44454C455445 = some (.cmdDelete 0 .absent) ∧
    decodeTableWord 40 0x4D4B444952 = some (.cmdMkdir 0 .absent) ∧
    decodeTableWord 48 0x4D4B46494C45 = some (.cmdMkfile 0 .absent) ∧
    decodeTableWord 40 0x544F554348 = some (.cmdTouch 0 .absent) ∧
    decodeTableWord 72 0x4C49535446494C4553 = some (.cmdListfiles 0 .absent) ∧
    decodeTableWord 48 0x4745544C454E = some (.cmdGetlen 0 .absent) := by decide

/-- Whole requests with operands, the encodings of programs P1 to P3: `RD -1048577`, `WR -131073, 0x55`, `MALLOC 1024`,
`INSTALL 1, REGCARD(256, 16)`; and operands without a width: a size, an endpoint, an interrupt count. -/
theorem test_requests :
    decode (.bus 0x00 0xFFEFFFFF none) = .ok (.read (-1048577)) ∧
    decode (.bus 0x01 0xFFFDFFFF (some 0x55)) = .ok (.write (-131073) 0x55) ∧
    decode (.alloc 0x10 1024) = .ok (.malloc 1024) ∧ decode (.alloc 0x11 (-9999999999)) = .ok (.free (-9999999999)) ∧
    decode (.link 0x25 256 (.data [0x01, 0x02])) = .ok (.writeout 256 [0x01, 0x02]) ∧
    decode (.cfg 0x30 (.entry 1 .regCard 256 16 4294967296)) = .ok (.install 1 .regCard 256 16 4294967296) := by decide
/-- Operands that are not the selector's. -/
theorem test_wrong_operands :
    decode (.bus 0x01 0 none) = .error (.wrongOperands 0x01) ∧ decode (.alloc 0x00 0) = .error (.wrongOperands 0x00) ∧
    decode (.link 0x25 0 .none) = .error (.wrongOperands 0x25) ∧
    decode (.cfg 0x12 .none) = .error (.unknownSelector 0x12) := by decide

/-! ## Single steps -/

/-- The fixture machine, running. -/
def running : State := { State.reset with runState := .running }

/-- The response of an operation. -/
def answer (r : Res State) : Option Response :=
  match r with
  | .next t => some t.response
  | .fault _ => none
  | .refused _ => none

/-- A view of the state after an operation. -/
def view {α : Type} (f : State → α) (r : Res State) : Option α :=
  match r with
  | .next t => some (f t)
  | .fault _ => none
  | .refused _ => none

/-- One operation after another, both of which must answer. -/
def after (i : Instr) (r : Res State) : Res State := andThen r (exec i)

/-- The instance of 95_test_vectors.md section 3, with a REGCARD in slot 1. -/
def busState : State :=
  running.setSlot 1 (some { card := .reg [] [], periMemSize := 256, mmioSize := 16, interruptCount := 0 })

/-- Section 3, rows 1 and 2. -/
theorem test_write_read : answer (after (.read 100) (exec (.write 100 0x2A) busState)) = some (.data 0x2A) := by decide
/-- Row 4. -/
theorem test_read_unmapped : answer (exec (.read 65536) busState) = some (.fault .illegalAccess 65536 7) := by decide
/-- Rows 6 and 8: the mirrored register. -/
theorem test_mirror :
    answer (after (.read (-131089)) (exec (.write (-131073) 0x55) busState)) = some (.data 0x55) := by decide
/-- Rows 12 and 13: card RAM. -/
theorem test_card_ram :
    answer (after (.read (-1048577)) (exec (.write (-1048577) 0x11) busState)) = some (.data 0x11) := by decide
/-- Rows 15 and 16: beyond the declared size, and an empty slot. -/
theorem test_card_faults :
    answer (exec (.read (-1048833)) busState) = some (.fault .illegalAccess (-1048833) 7) ∧
    answer (exec (.read (-2097153)) busState) = some (.fault .illegalAccess (-2097153) 7) := by decide

/-- Section 2: the decode of some words. -/
theorem test_decode_addresses :
    decodeAddress 65536 (-131089) = .mmio 1 16 ∧ decodeAddress 65536 (-1048576) = .mmio 7 131071 ∧
    decodeAddress 65536 (-1048577) = .ram 1 0 ∧ decodeAddress 65536 (-8388608) = .ram 7 1048575 ∧
    decodeAddress 65536 8388607 = .noMapping := by decide

/-- Section 4: an allocator of 16 units, empty. -/
def arena : State := { running with allocBits := List.replicate 16 false, allocMap := [] }

theorem test_malloc :
    view (fun t => (t.response, t.allocBits.take 3, t.allocMap)) (exec (.malloc 65) arena)
      = some (.offset 0, [true, true, false], [(0, 2)]) := by decide
theorem test_malloc_faults :
    answer (exec (.malloc 1025) arena) = some (.fault .outOfMemory 1025 7) ∧
    answer (exec (.malloc 0) arena) = some (.fault .invalidAllocSize 0 7) := by decide
theorem test_free_twice :
    answer (after (.free 0) (after (.free 0) (exec (.malloc 65) arena))) = some (.fault .invalidFree 0 7) := by decide
theorem test_free_inside :
    answer (after (.free 64) (exec (.malloc 65) arena)) = some (.fault .invalidFree 64 7) := by decide

/-- Section 5: the pair coding. -/
theorem test_pair :
    (encodePairLow ⟨808, false⟩, encodePairHigh ⟨808, false⟩) = (0x28, 0x03) ∧
    (encodePairLow ⟨4096, true⟩, encodePairHigh ⟨4096, true⟩) = (0x00, 0x10) ∧
    decodePair 0x28 0x23 = ⟨0, false⟩ ∧ decodePair 0x28 0xC3 = ⟨808, false⟩ ∧
    writePairHigh ⟨808, true⟩ 0x00 = ⟨40, false⟩ ∧ writePairLow ⟨0, false⟩ 0x28 = ⟨40, false⟩ ∧
    writePairLow ⟨808, true⟩ 0x00 = ⟨768, true⟩ := by decide +kernel

/-- Section 6: cables. -/
theorem test_cable_pair : answer (after (.cable 2) (exec (.attach 1 2) running)) = some (.bool true) := by decide
/-- 10_state.md R26. -/
theorem test_cable_halted : exec (.cable 1) State.reset = .refused .whileHalted := rfl
theorem test_has_next_halted : exec (.hasNext 1) State.reset = .refused .whileHalted := rfl
theorem test_cable_stale :
    answer (after (.cable 2) (after (.detach 1) (exec (.attach 1 2) running))) = some (.bool false) := by decide

/-- Endpoints 1 and 2 cabled, three bytes queued on 1, a port for 2 in slot 1 (section 5, status write). -/
def linked : State :=
  (((running.setSlot 1 (some { card := .blank, periMemSize := 0, mmioSize := 4, interruptCount := 0 })).modifyEndpoint 1
    (fun x => { x with recipient := some 2, device := .reference [0x01, 0x02, 0x03] [] })).modifyEndpoint 2
    (fun x => { x with recipient := some 1 }))

/-- Row 3 of the status write: the pull moves three bytes. -/
theorem test_status_write_pull :
    view (fun t => (t.endpoint? 2).map (fun x => (x.device, x.blockSize, x.sendmode))) (exec (.write (-131073) 0x04) linked)
      = some (some (.reference [] [0x01, 0x02, 0x03], ⟨3, false⟩, false)) := by decide
/-- The status byte of a cabled, idle master endpoint. -/
theorem test_status_read : answer (exec (.read (-131073)) linked) = some (.data 0x13) := by decide
/-- 42_link_engine.md R201: the count 4096 with its flag over a low byte 0, and the count 0 whatever the length bits are. -/
theorem test_pair_write :
    view (fun t => (t.endpoint? 2).map (·.blockSize)) (exec (.write (-131075) 0x10) linked) = some (some ⟨4096, true⟩) ∧
    view (fun t => (t.endpoint? 2).map (·.blockSize)) (exec (.write (-131075) 0xE3) linked) = some (some ⟨0, false⟩) := by
  decide +kernel
/-- The pair reads (0x00, 0x20) for a peer that has sent nothing. -/
theorem test_pair_read :
    answer (exec (.read (-131074)) linked) = some (.data 0x00) ∧
    answer (exec (.read (-131075)) linked) = some (.data 0x20) := by decide

/-- Section 6, block delivery. -/
theorem test_start_send :
    view (fun t => ((t.endpoint? 1).map (·.blockSize), (t.endpoint? 2).map (fun x => (x.device, x.ready, x.busy))))
        (exec (.startSend 1) linked)
      = some (some ⟨3, false⟩, some (.reference [] [0x01, 0x02, 0x03], true, false)) := by decide
theorem test_start_read :
    view (fun t => (t.endpoint? 1).map (·.device)) (exec (.startRead 2) linked) = some (some (.reference [] [])) := by
  decide
theorem test_recv : answer (exec (.recvMessage 2) linked) = some (.bytes [0x01, 0x02, 0x03]) := by decide
/-- The linked machine after a DETACH of endpoint 1, whose continuation flag is as given. -/
def detached (cont : Bool) : State :=
  linked.modifyEndpoint 1 (fun x => { x with blockSize := ⟨4096, cont⟩, recipient := none })

/-- R300: a RECV_MESSAGE whose peer was detached never returns while the peer's flag is set; with the flag clear it has one
block of no bytes (R189, a stale pair). -/
theorem test_recv_detached :
    exec (.recvMessage 2) (detached true) = .fault (.neverReturns (.flag 1)) ∧
    answer (exec (.recvMessage 2) (detached false)) = some (.bytes []) := ⟨rfl, by decide⟩
theorem test_has_next :
    answer (exec (.hasNext 1) linked) = some (.bool true) ∧ answer (exec (.hasNext 2) linked) = some (.bool false) := by
  decide
theorem test_writeout :
    view (fun t => (t.endpoint? 2).map (fun x => (x.device, x.blockSize.len))) (exec (.writeout 2 [0xAA]) linked)
      = some (some (.reference [] [0xAA], 1)) := by decide

/-- Section 7: expected times, and the accumulator of small blocks. -/
theorem test_delay :
    expectedNs 10 9600 = 10416666 ∧ expectedNs 4096 20000000 = 2048000 ∧
    delayStep 999500 1 20000000 0 = (1000000, 0) ∧ delayStep 1000000 1 20000000 0 = (0, 1000500) ∧
    delayStep 0 1 20000000 2000 = (-1500, 0) := by decide

/-- Endpoints 0, a command device, and 1, a vendor device, both with `bgAgent` set, and a write of an agent to come for each. -/
def agents (input : List Input) : State :=
  { (running.modifyEndpoint 0 (fun x => { x with bgAgent := true })).modifyEndpoint 1
      (fun x => { x with bgAgent := true, device := .vendor 0 0 }) with
    agentScript := [[(0, .statusCode 1), (1, .statusCode 1)]], pending := input }

/-- R80 and R43: an agent writes the endpoint of a vendor device that has one, and never a command device's, in a step that
takes nothing and in one that takes an operation without an atomic access. -/
theorem test_agents :
    view (fun t => ((t.endpoint? 0).map (·.statusCode), (t.endpoint? 1).map (·.statusCode))) (step (agents []))
      = some (some 0, some 1) ∧
    view (fun t => ((t.endpoint? 1).map (·.statusCode), t.response)) (step (agents [.request (.bus 0x01 100 (some 0x2A))]))
      = some (some 1, .ack) := by decide

/-! ### Configuration -/

theorem test_install :
    view (fun t => (t.slot 1).map (fun ent => (ent.card, ent.periMemSize))) (exec (.install 1 .regCard 256 16 0) State.reset)
      = some (some (.reg [] [], 256)) := by decide
theorem test_remove :
    view (fun t => (t.slot 1, t.periCalls)) (exec (.remove 1) { busState with runState := .halted })
      = some (none, [.dispose 1]) := by decide
theorem test_hot_swap : exec (.remove 1) busState = .refused .whileRunning := rfl
theorem test_halted : exec (.read 0) State.reset = .refused .whileHalted := rfl
theorem test_start_halt :
    view (·.runState) (exec .start State.reset) = some .running ∧ view (·.runState) (exec .halt running) = some .halted := by
  decide
/-- 40_bus_access.md R144, example: the allocator is empty again. -/
theorem test_reset :
    view (fun t => (t.runState, t.allocMap)) (after .reset (exec (.malloc 65) arena)) = some (.halted, []) := by decide

/-! ### Commands: endpoint 0, on the store of 95_test_vectors.md section 8 -/

/-- A command device with a session over a store. -/
def disk (store : Store) (x : Session) : CommandDevice :=
  { devType := [0x53, 0x54, 0x4F, 0x52], devName := [0x54, 0x45, 0x53, 0x54, 0x44, 0x49, 0x53, 0x4B], messages := [],
    forbidden := [], store := store, session := x }

/-- The file `a` of two bytes, the directory `d`, an I/O error at `i`, a security error at `s`. -/
def files : Store :=
  .fixture false
    [([[0x61]], .file [0x07, 0x08]), ([[0x64]], .dir), ([[0x69]], .ioError), ([[0x73]], .secError)]

/-- The running machine with a command device on endpoint 0. -/
def withDisk (store : Store) (x : Session) : State :=
  running.modifyEndpoint 0 (fun y => { y with device := .command (disk store x) })

/-- A session with a path, open or not. -/
def session (isOpen : Bool) (mode : OpenMode) (p : Option Path) : Session :=
  { Session.reset with fileOpen := isOpen, openMode := mode, curPath := p }

/-- Status and session of endpoint 0 after an operation. -/
def disked {α : Type} (f : Int → CommandDevice → α) (r : Res State) : Option (Option α) :=
  view (fun t => match t.endpoint? 0 with
    | some x => (match x.device with
      | .command d => some (f x.statusCode d)
      | .reference _ _ => none
      | .vendor _ _ => none)
    | none => none) r

/-- T9: OPENR of a missing file sets 129 and keeps the path. -/
theorem test_openr_missing :
    disked (fun c d => (c, d.session.fileOpen, d.session.curPath == some [[0x6D]], d.session.drive))
        (exec (.cmdOpenr 0 [0x22, 0x6D, 0x22, 0x2C, 0x31] (.eob [])) (withDisk (.fixture false []) Session.reset))
      = some (some (129, false, true, some 1)) := by decide
/-- R236: the staged reply is 22 bytes. -/
theorem test_devstu :
    disked (fun c d => (c, d.session.sendBuffer.length, d.session.sendBuffer.take 4))
        (exec (.cmdDevstu 0 .absent)
          ((withDisk files Session.reset).modifyEndpoint 0 (fun x => { x with statusCode := 129 })))
      = some (some (129, 22, [0x81, 0x1F, 0x4E, 0x4F])) := by decide
theorem test_devrst :
    disked (fun c d => (c, d.session)) (exec (.cmdDevrst 0 (.eob [0x58])) (withDisk files (session true .r (some [[0x61]]))))
      = some (some (0, Session.reset)) := by decide
theorem test_devtyp_devnam :
    disked (fun _ d => d.session.sendBuffer) (exec (.cmdDevtyp 0 .absent) (withDisk files Session.reset))
      = some (some [0x53, 0x54, 0x4F, 0x52, 0x17]) ∧
    disked (fun _ d => d.session.sendBuffer) (exec (.cmdDevnam 0 .absent) (withDisk files Session.reset))
      = some (some [0x54, 0x45, 0x53, 0x54, 0x44, 0x49, 0x53, 0x4B, 0x17]) := by decide
theorem test_openw_opena :
    disked (fun c d => (c, d.session.openMode)) (exec (.cmdOpenw 0 [0x22, 0x66, 0x22] .absent) (withDisk files Session.reset))
      = some (some (0, .w)) ∧
    disked (fun c d => (c, d.session.openMode)) (exec (.cmdOpena 0 [0x22, 0x66, 0x22] .absent) (withDisk files Session.reset))
      = some (some (0, .a)) := by decide
theorem test_read :
    disked (fun c d => (c, d.session.sendBuffer)) (exec (.cmdRead 0 .absent) (withDisk files (session true .r (some [[0x61]]))))
      = some (some (0, [0x07, 0x08])) := by decide
/-- 90_conflicts.md C16: READ of a directory is 131. -/
theorem test_read_dir :
    disked (fun c _ => c) (exec (.cmdRead 0 .absent) (withDisk files (session true .r (some [[0x64]])))) = some (some 131) := by
  decide
theorem test_write :
    disked (fun c d => (c, d.session.accumulating, d.session.writeTarget))
        (exec (.cmdWrite 0 [0x35] .absent) (withDisk files (session true .w (some [[0x66]]))))
      = some (some (0, true, 5)) := by decide
theorem test_write_commits :
    disked (fun c d => (c, d.session.accumulating, (d.store.readAll [[0x66]]).1))
        (after (.writeout 0 [0x03, 0x04])
          (after (.writeout 0 [0x01]) (exec (.cmdWrite 0 [0x32] .absent) (withDisk files (session true .w (some [[0x66]]))))))
      = some (some (0, false, .ok [0x01, 0x03])) := by decide
theorem test_close :
    disked (fun c d => (c, d.session.fileOpen, d.session.curPath == some [[0x61]]))
        (exec (.cmdClose 0 .absent) (withDisk files (session true .r (some [[0x61]]))))
      = some (some (0, false, true)) := by decide
theorem test_delete :
    disked (fun c d => (c, (d.store.stat [[0x61]]).1)) (exec (.cmdDelete 0 .absent) (withDisk files (session false .r (some [[0x61]]))))
      = some (some (0, .missing)) := by decide
theorem test_mkdir_mkfile :
    disked (fun c d => (c, (d.store.stat [[0x66]]).1)) (exec (.cmdMkdir 0 .absent) (withDisk files (session false .w (some [[0x66]]))))
      = some (some (0, .dir)) ∧
    disked (fun c d => (c, (d.store.stat [[0x66]]).1)) (exec (.cmdMkfile 0 .absent) (withDisk files (session false .w (some [[0x66]]))))
      = some (some (0, .file 0)) := by decide
theorem test_touch :
    disked (fun c _ => c) (exec (.cmdTouch 0 .absent) (withDisk files (session false .r (some [[0x6D]])))) = some (some 129) := by
  decide
theorem test_listfiles :
    disked (fun c _ => c) (exec (.cmdListfiles 0 .absent) (withDisk files (session false .r (some [[0x61]])))) = some (some 134) := by
  decide
theorem test_getlen :
    disked (fun c d => (c, d.session.sendBuffer)) (exec (.cmdGetlen 0 .absent) (withDisk files (session false .r (some [[0x61]]))))
      = some (some (0, [0x32, 0x17])) := by decide
/-- Section 8: `devrst` is no command. -/
theorem test_illegal :
    disked (fun c _ => c)
        (present (.cmd 0 [0x64, 0x65, 0x76, 0x72, 0x73, 0x74, 0x17]) (withDisk files Session.reset)) = some (some 128) := by
  decide
/-- Section 8: sanitised paths. -/
theorem test_sanitise :
    sanitise [] [0x2E, 0x2E, 0x2F, 0x61, 0x5C, 0x62, 0x2F, 0x2E, 0x2E, 0x2F, 0x63] = [[0x61], [0x63]] ∧
    sanitise [0x2A, 0x3F] [0x61, 0x2A, 0x62, 0x3F, 0x2F, 0x63] = [[0x61, 0x62], [0x63]] := by decide

/-! ## Witnesses: a state and operands that meet the hypotheses of a statement, each clause at a boundary value -/

theorem witness_DecodeEncode :
    (Instr.write (-2147483648) 0xFF).WellFormed ∧ (Instr.attach 256 0).WellFormed ∧
    (Instr.malloc (-2147483649)).WellFormed ∧
    (Instr.install 7 (.vendor 0) 1048576 131072 0).WellFormed ∧ (Instr.cmdOpenr 300 [0x22, 0x22] (.eob [])).WellFormed := by
  decide
theorem witness_EncodeDecode :
    decode (.cmd 0 [0x52, 0x45, 0x41, 0x44, 0x17, 0x17]) = .ok (.cmdRead 0 (.eob [0x17])) ∧
    [0x52, 0x45, 0x41, 0x44, 0x17, 0x17].length ≤ 4096 ∧ decode (.cfg 0x32 .none) = .ok .start := by decide
theorem witness_AddressWindows :
    8388608 ≤ 8388608 ∧ 8388607 < 8388608 ∧ 131071 < 131072 ∧ (1 : Slot) ≠ 0 ∧ 1048575 < 1048576 ∧
    (8388608 : Int) ≤ 8388608 ∧ (-8388609 : Int) ≤ -8388609 := by decide
theorem witness_StepRunsDecoded :
    (∃ s : State, s.pending = .request (.cfg 0x33 .none) :: [] ∧ decode (.cfg 0x33 .none) = .ok .halt ∧ s.agentScript = []) ∧
    ∃ x batch, (agents []).agentScript = batch :: [] ∧ (agents []).endpoint? 1 = some x ∧ x.runsAgent = true :=
  ⟨⟨{ running with pending := [.request (.cfg 0x33 .none)] }, rfl, rfl, rfl⟩, _, _, rfl, rfl, rfl⟩
theorem witness_UserRamAccess_WriteThenRead : running.runState = .running ∧ 65535 < running.memsize := by decide

/-- The first and last address of each cause, and one address beside it that is reachable. -/
theorem witness_IllegalAccess :
    busState.runState = .running ∧ Unreachable busState 65536 ∧ Unreachable busState (-8388609) ∧
    Unreachable busState (-1) ∧ Unreachable busState (-131072) ∧ Unreachable busState (-2097153) ∧
    Unreachable busState (-1048833) ∧ ¬Unreachable busState 65535 ∧ ¬Unreachable busState (-1048832) := by
  refine ⟨rfl, .inl (by decide), .inr (.inl (by decide)), .inr (.inr (.inl ⟨0, by decide, by decide, rfl⟩)),
    .inr (.inr (.inl ⟨0, by decide, by decide, rfl⟩)),
    .inr (.inr (.inr ⟨2, by decide, by decide, by decide, .inl rfl⟩)),
    .inr (.inr (.inr ⟨1, by decide, by decide, by decide, .inr ⟨_, rfl, by decide⟩⟩)), ?_, ?_⟩
  · rintro (h | h | ⟨j, h1, h2, h3⟩ | ⟨k, hk, h1, h2, h3⟩)
    · exact absurd h (by decide)
    · omega
    · omega
    · omega
  · rintro (h | h | ⟨j, h1, h2, h3⟩ | ⟨k, hk, h1, h2, h3⟩)
    · exact absurd h (by decide)
    · omega
    · omega
    · obtain rfl : k = 1 := Fin.ext (by show k.val = 1; omega)
      rcases h3 with h3 | ⟨ent, h3, h4⟩
      · exact absurd h3 (by decide)
      · obtain rfl : _ = ent := Option.some.inj h3
        exact absurd h4 (by decide)

/-- Four cards: REGCARD, the blank card, a vendor card, a card that declares no register. -/
def cards : State :=
  ((busState.setSlot 2 (some ⟨.blank, 1048576, 0, 0⟩)).setSlot 3 (some ⟨.vendor 0 0, 1, 131072, 0⟩)).setSlot 0
    (some ⟨.reg [] [], 0, 1, 0⟩)

theorem witness_Mirroring :
    ∃ a b, cards.runState = .running ∧ cards.slot 1 = some a ∧ cards.slot 2 = some b ∧ 131071 < 131072 ∧ 0 < a.mmioSize ∧
      131071 % a.mmioSize = 15 % a.mmioSize ∧ b.mmioSize = 0 :=
  ⟨_, _, rfl, rfl, rfl, by decide, by decide, by decide, rfl⟩
theorem witness_CardMemory :
    ∃ a b c, cards.runState = .running ∧ cards.slot 1 = some a ∧ 255 < a.periMemSize ∧ a.card = .reg [] [] ∧
      cards.slot 2 = some b ∧ 1048575 < b.periMemSize ∧ 1048575 < 1048576 ∧ b.card = .blank ∧
      cards.slot 3 = some c ∧ 0 < c.periMemSize ∧ c.card = .vendor 0 0 :=
  ⟨_, _, _, rfl, rfl, by decide, rfl, rfl, by decide, by decide, rfl, rfl, by decide, rfl⟩
/-- REGCARD, the blank card and a vendor card, with no port register at the offset: another slot than PORT_SLOT, or no port
at the offset. -/
theorem witness_CardRegisters :
    ∃ a b c, cards.runState = .running ∧ 131071 < 131072 ∧
      cards.slot 1 = some a ∧ a.card = .reg [] [] ∧ 0 < a.mmioSize ∧ NoPortAt cards 1 a.card (131071 % a.mmioSize) ∧
      linked.slot 1 = some b ∧ b.card = .blank ∧ 0 < b.mmioSize ∧ NoPortAt linked 1 b.card (3 % b.mmioSize) ∧
      cards.slot 3 = some c ∧ c.card = .vendor 0 0 ∧ 0 < c.mmioSize ∧ NoPortAt cards 3 c.card (131071 % c.mmioSize) :=
  ⟨_, _, _, rfl, by decide, rfl, rfl, by decide, .inr (.inl rfl), rfl, rfl, by decide, .inr (.inr rfl), rfl, rfl, by decide,
    .inl (by decide)⟩

/-- The port's three registers, at mirrored offsets, with and without a recipient. -/
theorem witness_PortReads_PortStatusWrite_PortPairWrite :
    ShowsPort linked 131068 (.status 2) ∧ ShowsPort linked 1 (.pairLow 2) ∧ ShowsPort linked 131070 (.pairHigh 2) ∧
    (∃ x y, Live linked 2 x ∧ x.recipient = some 1 ∧ linked.endpoint? 1 = some y ∧ y.bgAgent = false ∧
      x.blockSize.len ≤ 4096) ∧
    ∃ x, Live (linked.modifyEndpoint 2 (fun x => { x with recipient := none })) 2 x ∧ x.recipient = none :=
  ⟨⟨by decide, _, rfl, rfl, by decide, rfl⟩, ⟨by decide, _, rfl, rfl, by decide, rfl⟩,
    ⟨by decide, _, rfl, rfl, by decide, rfl⟩,
    ⟨_, _, ⟨rfl, rfl, rfl⟩, rfl, rfl, rfl, by decide⟩, ⟨_, ⟨rfl, rfl, rfl⟩, rfl⟩⟩
/-- A card whose calls return, and a vendor card that shows the port's registers. -/
theorem witness_PortPairWrite_cards :
    PortCardReturns linked ∧
    let vendor := linked.setSlot 1 (some { card := .vendor 0 0, periMemSize := 0, mmioSize := 4, interruptCount := 0 })
    (∃ x, Live vendor 2 x ∧ x.blockSize.len ≤ 4096) ∧ ShowsPort vendor 0 (.status 2) ∧ ShowsPort vendor 1 (.pairLow 2) ∧
      ShowsPort vendor 2 (.pairHigh 2) := by
  refine ⟨fun ent id token h hc => ?_, ⟨_, ⟨rfl, rfl, rfl⟩, by decide⟩, ⟨by decide, _, rfl, rfl, by decide, rfl⟩,
    ⟨by decide, _, rfl, rfl, by decide, rfl⟩, ⟨by decide, _, rfl, rfl, by decide, rfl⟩⟩
  obtain rfl : _ = ent := Option.some.inj h
  exact nomatch hc
theorem witness_PortPairWrite_counts : 1 ≤ 1 ∧ 1 ≤ 4095 ∧ 4095 ≤ 4095 := by decide
theorem witness_PairCoding :
    decodePair (encodePairLow ⟨0, true⟩) (encodePairHigh ⟨0, true⟩) = ⟨0, true⟩ ∧
    decodePair (encodePairLow ⟨4096, false⟩) (encodePairHigh ⟨4096, false⟩) = ⟨4096, false⟩ ∧
    0 ≤ 4096 ∧ 4096 ≤ 4096 := by decide +kernel

/-- A machine with an arena of `bits.length` units. -/
def arenaOf (bits : List Bool) (map : List (Nat × Nat)) : State :=
  { running with
    params := { running.params with memsize := Fin.ofNat 8388609 (64 * bits.length) }
    allocBits := bits
    allocMap := map }

theorem witness_MallocFirstFit :
    (arenaOf [true, false, false] [(0, 1)]).runState = .running ∧ (0 : Int) < 128 ∧
    1 + ((128 : Int).toNat + 63) / 64 ≤ (arenaOf [true, false, false] [(0, 1)]).allocBits.length ∧
    (∀ k, 1 ≤ k → k < 3 → (arenaOf [true, false, false] [(0, 1)]).allocBits[k]? = some false) ∧
    ∀ j, j < 1 → ∃ k, j ≤ k ∧ k < j + 2 ∧ (arenaOf [true, false, false] [(0, 1)]).allocBits[k]? = some true := by
  refine ⟨rfl, by decide, by decide, ?_, fun j hj => ⟨0, by omega, by omega, rfl⟩⟩
  intro k h1 h2
  obtain rfl | rfl : k = 1 ∨ k = 2 := by omega
  all_goals rfl
theorem witness_MallocFaults :
    (arenaOf [false, true] [(1, 1)]).runState = .running ∧ (0 : Int) ≤ 0 ∧ (0 : Int) < 65 ∧
    ∀ i, i + ((65 : Int).toNat + 63) / 64 ≤ (arenaOf [false, true] [(1, 1)]).allocBits.length →
      ∃ k, i ≤ k ∧ k < i + ((65 : Int).toNat + 63) / 64 ∧ (arenaOf [false, true] [(1, 1)]).allocBits[k]? = some true := by
  refine ⟨rfl, by decide, by decide, fun i hi => ⟨1, ?_, ?_, rfl⟩⟩
  all_goals
    have hi : i + 2 ≤ 2 := hi
    show _
    omega
theorem witness_FreeReleases :
    (arenaOf [true, true] [(0, 2)]).runState = .running ∧ (arenaOf [true, true] [(0, 2)]).allocMap.lookup 0 = some 2 := by
  decide
theorem witness_InvalidFree :
    (-1 : Int) < 0 ∧ (1 : Int) % 64 ≠ 0 ∧
    (arenaOf [true, true] [(0, 2)]).allocMap.lookup ((64 : Int).toNat / 64) = none := by decide
theorem allocInv_pair : AllocInv (arenaOf [true, true] [(0, 2)]) := by
  refine ⟨rfl, ?_, List.pairwise_singleton _ _, ?_⟩
  · intro p hp
    obtain rfl := List.mem_singleton.mp hp
    refine ⟨by decide, by decide, fun i _ hi => ?_⟩
    obtain rfl | rfl : i = 0 ∨ i = 1 := by omega
    all_goals rfl
  · intro i hi
    exact ⟨(0, 2), List.mem_singleton.mpr rfl, Nat.zero_le _, (List.getElem?_eq_some_iff.mp hi).1⟩
theorem witness_Reuse :
    (arenaOf [true, true] [(0, 2)]).runState = .running ∧ AllocInv (arenaOf [true, true] [(0, 2)]) ∧
    (arenaOf [true, true] [(0, 2)]).allocMap.lookup 0 = some 2 ∧ (0 : Int) < 128 ∧ ((128 : Int).toNat + 63) / 64 ≤ 2 :=
  ⟨rfl, allocInv_pair, rfl, by decide, by decide⟩
theorem witness_AllocInvKept :
    ∃ s t, AllocInv s ∧ step s = .next t ∧ t.allocMap = [] :=
  ⟨{ arenaOf [true, true] [(0, 2)] with pending := [.request (.alloc 0x11 0)] }, _, allocInv_pair, rfl, rfl⟩
theorem witness_Exclusivity : ∃ s, Reachable s ∧ s.allocMap = [(0, 2)] :=
  ⟨_, .stepped (.stepped
    (.built { Build.fixture with params := { Build.fixture.params with memsize := 128 } }
      [.request (.cfg 0x32 .none), .request (.alloc 0x10 65)] []) rfl) rfl, rfl⟩

theorem witness_Cabling_CableSymmetry :
    ∃ x y z, running.runState = .running ∧ (1 : Nat) ≠ 2 ∧ (1 : Nat) ≠ 0 ∧ (2 : Nat) ≠ 0 ∧ running.endpoint? 1 = some x ∧ running.endpoint? 2 = some y ∧
      running.endpoint? 0 = some z := ⟨_, _, _, rfl, by decide, by decide, by decide, rfl, rfl, rfl⟩

/-- The linked machine with a vendor device behind endpoint 0. -/
def vendored : State := linked.putDevice 0 (.vendor 0 0)

theorem witness_LinkQueries :
    linked.runState = .running ∧ (∃ x, linked.endpoint? 1 = some x ∧ x.device.queued = some [0x01, 0x02, 0x03]) ∧
    (∃ x, linked.endpoint? 0 = some x ∧ x.device.queued = some []) ∧ vendored.runState = .running ∧
    ∃ x, vendored.endpoint? 0 = some x ∧ x.device = .vendor 0 0 := ⟨rfl, ⟨_, rfl, rfl⟩, ⟨_, rfl, rfl⟩, rfl, ⟨_, rfl, rfl⟩⟩
theorem witness_WriteoutDelivers :
    ∃ x d status, Live linked 2 x ∧ x.consume (([] : Bytes).take 4096) = some (d, status) := ⟨_, _, _, ⟨rfl, rfl, rfl⟩, rfl⟩
/-- A block of three bytes from 1 to 2, and an empty block from 2 to 1. -/
theorem witness_StartSendDelivers :
    (∃ x y d r more status, Live linked 1 x ∧ Live linked 2 y ∧ (1 : Nat) ≠ 2 ∧ x.recipient = some 2 ∧
      produceOf 1 x = .next ([0x01, 0x02, 0x03], d) ∧ hasNextOf 1 d = .next more ∧
      y.consume [0x01, 0x02, 0x03] = some (r, status)) ∧
    ∃ x y d r more status, Live linked 2 x ∧ Live linked 1 y ∧ (2 : Nat) ≠ 1 ∧ x.recipient = some 1 ∧
      produceOf 2 x = .next ([], d) ∧ hasNextOf 2 d = .next more ∧ y.consume [] = some (r, status) :=
  ⟨⟨_, _, _, _, _, _, ⟨rfl, rfl, rfl⟩, ⟨rfl, rfl, rfl⟩, by decide, rfl, rfl, rfl, rfl⟩,
    ⟨_, _, _, _, _, _, ⟨rfl, rfl, rfl⟩, ⟨rfl, rfl, rfl⟩, by decide, rfl, rfl, rfl, rfl⟩⟩
theorem witness_QueuedBlock : ∃ x, linked.endpoint? 1 = some x ∧ x.device.queued = some [0x01, 0x02, 0x03] := ⟨_, rfl, rfl⟩
theorem witness_StartReadIsPeersSend :
    (∃ x, linked.runState = .running ∧ linked.endpoint? 2 = some x ∧ x.recipient = some 1) ∧
    ∃ x, running.runState = .running ∧ running.endpoint? 2 = some x ∧ x.recipient = none ∧ x.bgAgent = false :=
  ⟨⟨_, rfl, rfl, rfl⟩, ⟨_, rfl, rfl, rfl, rfl⟩⟩
/-- Three bytes queued, and nothing queued; a loop that one turn ends, and one that no number of turns ends; a detached peer
with its flag set, and one with its flag clear. -/
theorem witness_RecvConservation :
    (∃ x y, Live linked 1 x ∧ Live linked 2 y ∧ x.recipient = some 2 ∧ y.recipient = some 1 ∧
      x.device.queued = some [0x01, 0x02, 0x03] ∧ y.device = .reference [] []) ∧
    ∃ x y, Live linked 2 x ∧ Live linked 1 y ∧ x.recipient = some 1 ∧ y.recipient = some 2 ∧
      x.device.queued = some [] ∧ y.device = .reference [0x01, 0x02, 0x03] [] :=
  ⟨⟨_, _, ⟨rfl, rfl, rfl⟩, ⟨rfl, rfl, rfl⟩, rfl, rfl, rfl, rfl⟩,
    ⟨_, _, ⟨rfl, rfl, rfl⟩, ⟨rfl, rfl, rfl⟩, rfl, rfl, rfl, rfl⟩⟩
theorem witness_RecvConservation_loop :
    (∃ x r, linked.runState = .running ∧ linked.endpoint? 2 = some x ∧ x.recipient = some 1 ∧
      recvWithin 1 2 1 [] linked = some r) ∧
    ∃ x, (detached true).runState = .running ∧ (detached true).endpoint? 2 = some x ∧ x.recipient = some 1 ∧
      ∀ turns, recvWithin turns 2 1 [] (detached true) = none := by
  refine ⟨⟨_, _, rfl, rfl, rfl, rfl⟩, _, rfl, rfl, rfl, fun turns => Option.eq_none_iff_forall_ne_some.mpr fun r h => ?_⟩
  have hnone := recvLoop_flagStays (e := 2) (peer := 1) (buf := []) (s := detached true) rfl rfl rfl
  rw [recvLoop_eq_some_iff.mpr ⟨turns, h⟩] at hnone
  exact nomatch hnone
theorem witness_RecvConservation_detached (cont : Bool) :
    ∃ x y, (detached cont).endpoint? 2 = some x ∧ x.recipient = some 1 ∧ Live (detached cont) 1 y ∧ y.recipient = none ∧
      y.blockSize.cont = cont :=
  ⟨_, _, rfl, rfl, ⟨rfl, rfl, rfl⟩, rfl, rfl⟩
theorem witness_DelayStep : 0 < 1 ∧ 4265666665 < 4265666666 := by decide

/-- The linked machine about to deliver a block. -/
def sending : State := { linked with pending := [.request (.link 0x23 1 .none)] }

theorem witness_LinkInvKept : ∃ t, LinkInv sending ∧ step sending = .next t := by
  refine ⟨_, ?_, rfl⟩
  intro p hp
  fin_cases hp
  all_goals exact ⟨fun _ => ⟨rfl, rfl⟩, by decide⟩
/-- A machine in which a vendor card owns two endpoints, 3 and 5, of which 3 is there already, owned by slot 1. -/
def owning : State :=
  { State.reset with
    params := { State.reset.params with
      cardEndpoints := [(.vendor 9, [(3, ⟨false, true, 1, true, .vendor 0 0⟩), (5, ⟨true, false, 1, false, .reference [] []⟩)])] }
    endpoints := State.reset.endpoints ++ [(3, (⟨true, true, 2, false, .reference [] []⟩ : EndpointBuild).construct (some 1))] }

/-- Cards that own endpoints and cards that own none; an endpoint that is kept, one that is not there, one that gives way. -/
theorem witness_InstallPlaces :
    ∃ owned x, owning.runState = .halted ∧ owning.slot 1 = none ∧ 1048576 ≤ 1048576 ∧ 131072 ≤ 131072 ∧
      (owning.params.cardEndpoints.lookup (.vendor 9)).getD [] = owned ∧ (owned.map Prod.fst).Nodup ∧
      (owned.lookup 5).isSome ∧ owned.lookup 0 = none ∧ owning.endpoint? 0 = some x ∧ x.owner ≠ some 1 ∧
      owned.lookup 4 = none ∧ owning.endpoint? 4 = none ∧ (owning.endpoint? 3).isSome ∧
      (owning.params.cardEndpoints.lookup .regCard).getD [] = [] :=
  ⟨_, _, rfl, rfl, by decide, by decide, rfl, by decide, rfl, rfl, rfl, by decide, rfl, rfl, rfl, rfl⟩
/-- The owned endpoints come with the card, anew. -/
theorem test_install_owned :
    view (fun t => ((t.endpoint? 3).map (fun x => (x.baud, x.bgAgent, x.owner)), (t.endpoint? 5).map (·.isMaster),
        (t.endpoint? 4).isNone)) (exec (.install 1 (.vendor 9) 0 0 0) owning)
      = some (some (1, true, some 1), some true, true) := by decide
/-- A halted machine with a card in slot 1. -/
theorem witness_RemoveEmpties_InstallPlaces :
    ∃ s : State, ∃ ent, s.runState = .halted ∧ s.slot 1 = some ent ∧ s.slot 2 = none ∧
      ∀ id token, ent.card = .vendor id token → Config.cardDisposeReturns id token = true :=
  ⟨{ busState with runState := .halted }, _, rfl, rfl, rfl, fun _ _ h => Card.noConfusion h⟩
theorem witness_ResetRestores :
    (∃ x d, running.endpoint? 0 = some x ∧ x.device = .command d) ∧ (∃ x, running.endpoint? 1 = some x) ∧
    (∃ x, vendored.endpoint? 0 = some x ∧ x.device = .vendor 0 0) ∧ running.endpoint? 3 = none :=
  ⟨⟨_, _, rfl, rfl⟩, ⟨_, rfl⟩, ⟨_, rfl, rfl⟩, rfl⟩
/-- The linked machine in which endpoint 2 names an endpoint that is not there, and a vendor device sends on 1. -/
def stale : State :=
  (linked.modifyEndpoint 2 (fun x => { x with recipient := some 9 })).putDevice 1 (.vendor 0 0)

theorem witness_Refusals :
    State.reset.runState = .halted ∧ (8 : Nat) ≤ 8 ∧ (1048576 : Int) < 1048577 ∧ (131072 : Int) < 131073 ∧ (-1 : Int) < 0 ∧
    running.runState = .running ∧ running.endpoint? 9 = none ∧ (1 : EndpointId) ≠ 9 ∧ (running.endpoint? 1).isSome ∧
    (∃ x data d, Live stale 2 x ∧ x.recipient = some 9 ∧ stale.endpoint? 9 = none ∧ produceOf 2 x = .next (data, d)) ∧
    ∃ x, Live stale 1 x ∧ x.recipient = some 2 ∧ x.device = .vendor 0 0 :=
  ⟨rfl, by decide, by decide, by decide, by decide, rfl, rfl, by decide, rfl,
    ⟨_, _, _, ⟨rfl, rfl, rfl⟩, rfl, rfl, rfl⟩, ⟨_, ⟨rfl, rfl, rfl⟩, rfl, rfl⟩⟩

theorem witness_CommandIsItsWriteout :
    (Instr.cmdRead 0 (.eob [])).WellFormed ∧
    encode (.cmdRead 0 (.eob [])) = .cmd 0 [0x52, 0x45, 0x41, 0x44, 0x17] := by decide

/-- The machine with the store of section 8 and a session, its device in an error state. -/
def sick (x : Session) : State := (withDisk files x).modifyEndpoint 0 (fun y => { y with statusCode := 129 })

theorem witness_DeviceCommands :
    ∃ x d, AwaitsCommand (sick Session.reset) 0 x d ∧ x.statusCode = 129 ∧ 6 + (Tail.eob []).bytes.length ≤ 4096 :=
  ⟨_, _, ⟨⟨rfl, rfl, rfl⟩, rfl, rfl⟩, rfl, by decide⟩
/-- Arguments for every clause of OPEN: no grammar; `i`, `s`, `m`, `d`, `a` for the five answers of the store. -/
theorem witness_OpenRead :
    (∃ x d, AwaitsCommand (sick Session.reset) 0 x d ∧ d.session.fileOpen = false ∧
      (d.store.stat (sanitise d.forbidden [0x69])).1 = .ioError ∧ (d.store.stat (sanitise d.forbidden [0x73])).1 = .secError ∧
      (d.store.stat (sanitise d.forbidden [0x6D])).1 = .missing ∧ (d.store.stat (sanitise d.forbidden [0x64])).1 = .dir ∧
      (d.store.stat (sanitise d.forbidden [0x61])).1 = .file 2) ∧
    (∃ x d, AwaitsCommand (sick (session true .r (some []))) 0 x d ∧ d.session.fileOpen = true) ∧
    parseOpen [] = none ∧ parseOpen [0x22, 0x69, 0x22] = some ([0x69], none) ∧
    parseOpen [0x22, 0x22, 0x2C, 0x30] = some ([], some 0) ∧ 0x17 ∉ ([0x22, 0x69, 0x22] : Bytes) ∧
    5 + ([0x22, 0x69, 0x22] : Bytes).length + Tail.absent.bytes.length ≤ 4096 :=
  ⟨⟨_, _, ⟨⟨rfl, rfl, rfl⟩, rfl, rfl⟩, rfl, rfl, rfl, rfl, rfl, rfl⟩, ⟨_, _, ⟨⟨rfl, rfl, rfl⟩, rfl, rfl⟩, rfl⟩,
    by decide, by decide, by decide, by decide, by decide⟩
/-- A writable and a read-only store. -/
theorem witness_OpenWrite :
    (∃ x d, AwaitsCommand (withDisk files Session.reset) 0 x d ∧ d.session.fileOpen = false ∧ d.store.readOnly = false) ∧
    ∃ x d, AwaitsCommand (withDisk (.fixture true []) Session.reset) 0 x d ∧ d.session.fileOpen = false ∧
      d.store.readOnly = true ∧ parseOpen [0x22, 0x22] = some ([], none) ∧ 0x17 ∉ ([0x22, 0x22] : Bytes) ∧
      5 + ([0x22, 0x22] : Bytes).length + Tail.absent.bytes.length ≤ 4096 :=
  ⟨⟨_, _, ⟨⟨rfl, rfl, rfl⟩, rfl, rfl⟩, rfl, rfl⟩,
    ⟨_, _, ⟨⟨rfl, rfl, rfl⟩, rfl, rfl⟩, rfl, rfl, by decide, by decide, by decide⟩⟩
theorem witness_ArgumentGrammars : parseDigits [0x30] = some 0 ∧ parseDigits (0x30 :: [0x39]) = some 9 := by decide
/-- Real segments, one of three dots among them, between either separator; a forbidden byte. -/
theorem witness_SanitisedPaths :
    [0x61] ∈ sanitise [0x2A] [0x2E, 0x2E, 0x2F, 0x61] ∧ 0x2E ∉ ([0x2A] : Bytes) ∧ 0x2F ∉ ([0x2A] : Bytes) ∧
    (0x2A : Byte) ∈ ([0x2A] : Bytes) ∧ (0x2A : Byte) ≠ 0x5C ∧
    (∀ seg ∈ ([[0x61], [0x2E, 0x2E, 0x2E]] : Path), RealSegment [0x2A] seg) ∧
    sanitise [0x2A] (joinSegments 0x5C [[0x61], [0x2E, 0x2E, 0x2E]]) = [[0x61], [0x2E, 0x2E, 0x2E]] := by
  refine ⟨by decide, by decide, by decide, by decide, by decide, fun seg h => ?_, by decide⟩
  fin_cases h
  all_goals exact ⟨by decide, by decide, by decide, by decide, by decide, by decide⟩
theorem witness_ReadStages :
    (∃ x d, AwaitsCommand (withDisk files Session.reset) 0 x d ∧ d.session.fileOpen = false) ∧
    (∃ x d, AwaitsCommand (withDisk files (session true .w (some []))) 0 x d ∧ d.session.openMode ≠ .r) ∧
    ∃ x d, AwaitsCommand (withDisk files (session true .r (some [[0x61]]))) 0 x d ∧ d.session.fileOpen = true ∧
      d.session.openMode = .r ∧ d.session.curPath = some [[0x61]] ∧ (d.store.stat [[0x61]]).1 = .file 2 ∧
      (d.store.stat [[0x69]]).1 = .ioError ∧ (d.store.stat [[0x73]]).1 = .secError ∧ (d.store.stat [[0x64]]).1 = .dir ∧
      4 + (Tail.eob []).bytes.length ≤ 4096 :=
  ⟨⟨_, _, ⟨⟨rfl, rfl, rfl⟩, rfl, rfl⟩, rfl⟩, ⟨_, _, ⟨⟨rfl, rfl, rfl⟩, rfl, rfl⟩, by decide⟩,
    ⟨_, _, ⟨⟨rfl, rfl, rfl⟩, rfl, rfl⟩, rfl, rfl, rfl, rfl, rfl, rfl, rfl, by decide⟩⟩
theorem witness_WriteAnnounces :
    parseDigits [] = none ∧ parseDigits [0x30] = some 0 ∧ parseDigits [0x31] = some 1 ∧
    0x17 ∉ ([0x31] : Bytes) ∧ 5 + ([0x31] : Bytes).length + Tail.absent.bytes.length ≤ 4096 ∧
    ∃ x d, AwaitsCommand (withDisk files (session true .a (some [[0x66]]))) 0 x d ∧ d.session.fileOpen = true ∧
      d.session.openMode ≠ .r ∧ d.session.curPath = some [[0x66]] :=
  ⟨by decide, by decide, by decide, by decide, by decide, _, _, ⟨⟨rfl, rfl, rfl⟩, rfl, rfl⟩, rfl, by decide, rfl⟩
/-- Two of three bytes are there: no byte leaves the buffer, one completes it. -/
theorem witness_DataAccumulates :
    ∃ x d, Live (withDisk files
        { session true .w (some [[0x66]]) with
          writeBuffer := [1, 2], writeBufferUsage := 2, writeTarget := 3, accumulating := true }) 0 x ∧
      x.device = .command d ∧ d.session.accumulating = true ∧ d.session.Inv ∧ d.session.curPath = some [[0x66]] ∧
      d.session.writeBuffer.length + 0 < d.session.writeTarget ∧ d.session.writeTarget ≤ d.session.writeBuffer.length + 1 :=
  ⟨_, _, ⟨rfl, rfl, rfl⟩, rfl, rfl,
    ⟨rfl, by decide, fun _ => by decide, fun h => Bool.noConfusion h, fun _ => Option.some_ne_none _, by decide⟩, rfl,
    by decide, by decide⟩
theorem witness_MultiBlockWrite :
    ∃ x d, AwaitsCommand (withDisk files (session true .w (some [[0x66]]))) 0 x d ∧ d.session.fileOpen = true ∧
      d.session.openMode = .w ∧ d.session.curPath = some [[0x66]] ∧ 5 + (decimal (0 + 1)).length ≤ 4096 ∧
      0 < ([0x01] : Bytes).length ∧ (d.store.writeAll [[0x66]] ([] ++ [0x01])).1 = .ok :=
  ⟨_, _, ⟨⟨rfl, rfl, rfl⟩, rfl, rfl⟩, rfl, rfl, rfl, by decide, by decide, rfl⟩
/-- No path; a read-only store; a path of each kind. -/
theorem witness_ChangeCommands_QueryCommands :
    (∃ x d, AwaitsCommand (withDisk files Session.reset) 0 x d ∧ d.session.curPath = none) ∧
    (∃ x d, AwaitsCommand (withDisk (.fixture true []) (session false .r (some []))) 0 x d ∧ d.store.readOnly = true) ∧
    ∀ p : Path, ∃ x d, AwaitsCommand (withDisk files (session false .r (some p))) 0 x d ∧ d.session.curPath = some p ∧
      d.store.readOnly = false ∧ (d.store.stat [[0x61]]).1 = .file 2 ∧ (d.store.stat [[0x64]]).1 = .dir ∧
      (d.store.stat [[0x6D]]).1 = .missing ∧ (d.store.stat [[0x69]]).1 = .ioError ∧
      (d.store.stat [[0x73]]).1 = .secError :=
  ⟨⟨_, _, ⟨⟨rfl, rfl, rfl⟩, rfl, rfl⟩, rfl⟩, ⟨_, _, ⟨⟨rfl, rfl, rfl⟩, rfl, rfl⟩, rfl⟩,
    fun _ => ⟨_, _, ⟨⟨rfl, rfl, rfl⟩, rfl, rfl⟩, rfl, rfl, rfl, rfl, rfl, rfl, rfl⟩⟩
theorem witness_IllegalCommand :
    (∃ x d, AwaitsCommand (withDisk files Session.reset) 0 x d) ∧
    (∀ k : Keyword, k ∉ [Keyword.openr, .openw, .opena, .write] → ([] : Bytes) ≠ k.bytes) ∧
    ∀ k : Keyword, k ∈ [Keyword.openr, .openw, .opena, .write] → ¬k.bytes <+: ([] : Bytes) := by
  refine ⟨⟨_, _, ⟨⟨rfl, rfl, rfl⟩, rfl, rfl⟩⟩, ?_, ?_⟩
  · intro k
    cases k <;> decide
  · intro k
    cases k <;> decide
theorem witness_SessionInvKept : ∃ t, SessionInv sending ∧ step sending = .next t := by
  refine ⟨_, ?_, rfl⟩
  intro p hp
  fin_cases hp
  · exact ⟨rfl, by decide, fun h => Bool.noConfusion h, fun _ => rfl, fun h => Bool.noConfusion h, by decide⟩
  all_goals trivial

/-- Each of the four faults. -/
theorem witness_FaultIsolation :
    answer (exec (.write (-1) 0) running) = some (.fault .illegalAccess (-1) 7) ∧
    answer (exec (.malloc 65) (arenaOf [false] [])) = some (.fault .outOfMemory 65 7) ∧
    answer (exec (.malloc 0) running) = some (.fault .invalidAllocSize 0 7) ∧
    answer (exec (.free 0) running) = some (.fault .invalidFree 0 7) := by decide
theorem witness_TableFixedWhileRunning_ParametersConstant :
    ∃ t, sending.runState = .running ∧ step sending = .next t ∧ ∃ ent, sending.slot 1 = some ent := ⟨_, rfl, rfl, _, rfl⟩
/-- A step that runs no operation, of each kind: nothing, a load, no operation. -/
theorem witness_RunsNoOperation :
    ∃ u v w b c d, RunsNoOperation u ∧ step u = .next b ∧ u.pending = [] ∧
      RunsNoOperation v ∧ step v = .next c ∧ v.pending = [.loadTx 1 [0x01]] ∧
      RunsNoOperation w ∧ step w = .next d ∧ w.pending = [.request (.addr 0x00800000)] :=
  ⟨linked, { linked with pending := [.loadTx 1 [0x01]] },
    { linked with pending := [.request (.addr 0x00800000)] }, _, _, _,
    .inl rfl, rfl, rfl, .inr (.inl ⟨_, _, _, rfl⟩), rfl, rfl, .inr (.inr ⟨_, _, _, rfl, rfl⟩), rfl, rfl⟩
theorem witness_UserRamWriters_OnlyWriters :
    (∃ t, exec (.write 65535 1) running = .next t) ∧ (∃ t, exec (.malloc 64) arena = .next t) ∧
    (∃ t, exec .reset running = .next t) ∧ ∃ t x, exec (.attach 1 2) running = .next t ∧ running.endpoint? 1 = some x :=
  ⟨⟨_, rfl⟩, ⟨_, rfl⟩, ⟨_, rfl⟩, ⟨_, _, rfl, rfl⟩⟩
theorem witness_StructureInvKept : ∃ t, (MemoryInv sending ∧ TableInv sending ∧ CableInv sending) ∧ step sending = .next t := by
  refine ⟨_, ⟨⟨List.Pairwise.nil, fun c hc => absurd hc (List.not_mem_nil)⟩, ?_, ?_⟩, rfl⟩
  · intro k ent h
    fin_cases k
    all_goals first
      | (change none = some ent at h; cases h)
      | (obtain rfl : _ = ent := Option.some.inj h; exact ⟨by decide, by decide⟩)
  · intro p hp
    fin_cases hp <;> decide

end Sys2Proof.Tests
end

section
/-! What an operation keeps of the machine's structure, and what the writers of that structure make of it. The operations
that move data (READ, WRITE outside user RAM, the transfers, the commands, the address decode) keep parameters, user RAM,
allocator, run state, the declared table and the wiring of every endpoint; `Effect` lists the other ones. An invariant of
those parts then has one case for each constructor of `Effect`. -/

namespace Sys2Proof.Machine

/-! ## The wiring of the endpoints (R30, R31) -/

/-- What no transfer and no background agent writes of an endpoint: role flags, baud rate, agent, owner, cable (R30, R31). -/
def Endpoint.wiring (x : Endpoint) : Bool × Bool × Nat × Bool × Option Slot × Option EndpointId :=
  (x.isMaster, x.isSlave, x.baud, x.bgAgent, x.owner, x.recipient)

/-- The wiring of every endpoint of the list, those behind an earlier one of the same identifier too. -/
def State.wiring (s : State) : List (EndpointId × Bool × Bool × Nat × Bool × Option Slot × Option EndpointId) :=
  s.endpoints.map (fun p => (p.1, p.2.wiring))

theorem State.wiring_congr {s t : State} (h : t.endpoints = s.endpoints) : t.wiring = s.wiring := by
  unfold State.wiring
  rw [h]

/-- A change of an endpoint that is none of its wiring. -/
theorem State.wiring_modifyEndpoint (s : State) (e : EndpointId) {g : Endpoint → Endpoint}
    (hg : ∀ x, (g x).wiring = x.wiring) : (s.modifyEndpoint e g).wiring = s.wiring := by
  unfold State.wiring
  rw [State.modifyEndpoint_endpoints, List.map_map]
  refine List.map_congr_left fun p _ => ?_
  rw [Function.comp_apply]
  split
  · rw [hg]
  · rfl

theorem AgentWrite.apply_wiring (w : AgentWrite) (x : Endpoint) : (w.apply x).wiring = x.wiring := by
  cases w <;> rfl

@[simp] theorem State.wiring_agentWrite (s : State) (p : EndpointId × AgentWrite) :
    (s.agentWrite p).wiring = s.wiring := by
  refine State.wiring_modifyEndpoint s p.1 fun x => ?_
  split
  · exact p.2.apply_wiring x
  · rfl

theorem State.wiring_foldl_agentWrite (batch : List (EndpointId × AgentWrite)) (s : State) :
    (batch.foldl State.agentWrite s).wiring = s.wiring := by
  induction batch generalizing s with
  | nil => rfl
  | cons p rest ih => rw [List.foldl_cons, ih, State.wiring_agentWrite]

@[simp] theorem State.wiring_interleave (s : State) : s.interleave.wiring = s.wiring := by
  unfold State.interleave
  split
  · rfl
  · rw [State.wiring_foldl_agentWrite]
    rfl

/-- A single atomic access writes none of the wiring. -/
theorem State.wiring_interleave_modifyEndpoint (s : State) (e : EndpointId) {g : Endpoint → Endpoint}
    (hg : ∀ x, (g x).wiring = x.wiring) : (s.interleave.modifyEndpoint e g).wiring = s.wiring := by
  rw [State.wiring_modifyEndpoint _ e hg, State.wiring_interleave]

@[simp] theorem State.wiring_tick (s : State) : s.tick.wiring = s.wiring := rfl
@[simp] theorem State.wiring_respond (s : State) (r : Response) : (s.respond r).wiring = s.wiring := rfl
@[simp] theorem State.wiring_putDevice (s : State) (e : EndpointId) (d : Device) : (s.putDevice e d).wiring = s.wiring :=
  State.wiring_modifyEndpoint s e fun _ => rfl
@[simp] theorem State.wiring_putSendmode (s : State) (e : EndpointId) (b : Bool) : (s.putSendmode e b).wiring = s.wiring :=
  State.wiring_modifyEndpoint s e fun _ => rfl
@[simp] theorem State.wiring_putBusy (s : State) (e : EndpointId) (b : Bool) : (s.putBusy e b).wiring = s.wiring :=
  s.wiring_interleave_modifyEndpoint e fun _ => rfl
@[simp] theorem State.wiring_putReady (s : State) (e : EndpointId) (b : Bool) : (s.putReady e b).wiring = s.wiring :=
  s.wiring_interleave_modifyEndpoint e fun _ => rfl
@[simp] theorem State.wiring_putStatus (s : State) (e : EndpointId) (c : Int) : (s.putStatus e c).wiring = s.wiring :=
  s.wiring_interleave_modifyEndpoint e fun _ => rfl
@[simp] theorem State.wiring_putBlockSize (s : State) (e : EndpointId) (v : BlockSize) :
    (s.putBlockSize e v).wiring = s.wiring :=
  s.wiring_interleave_modifyEndpoint e fun _ => rfl
@[simp] theorem State.wiring_enterTransfer (s : State) (e : EndpointId) : (s.enterTransfer e).wiring = s.wiring := by
  simp [State.enterTransfer]
@[simp] theorem State.wiring_leaveTransfer (s : State) (e : EndpointId) : (s.leaveTransfer e).wiring = s.wiring := by
  simp [State.leaveTransfer]
@[simp] theorem State.wiring_putReceivedLen (s : State) (e : EndpointId) (n : Nat) :
    (s.putReceivedLen e n).wiring = s.wiring := by
  simp [State.putReceivedLen]

/-! ## What transfers keep -/

/-- The structure of the machine is as before: everything but what moves in a transfer (endpoints' flags, counts and devices,
clock, wire, the agents' script), the response, the queue, the calls noted, and a card's own state. -/
structure Kept (s t : State) : Prop where
  params : t.params = s.params
  userMemory : t.userMemory = s.userMemory
  table : SameTable s t
  romMapping : t.romMapping = s.romMapping
  runState : t.runState = s.runState
  allocBits : t.allocBits = s.allocBits
  allocMap : t.allocMap = s.allocMap
  wiring : t.wiring = s.wiring
  resetCount : t.resetCount = s.resetCount
  installs : t.installs = s.installs

theorem Kept.trans {s t u : State} (h1 : Kept s t) (h2 : Kept t u) : Kept s u where
  params := h2.params.trans h1.params
  userMemory := h2.userMemory.trans h1.userMemory
  table := h1.table.trans h2.table
  romMapping := h2.romMapping.trans h1.romMapping
  runState := h2.runState.trans h1.runState
  allocBits := h2.allocBits.trans h1.allocBits
  allocMap := h2.allocMap.trans h1.allocMap
  wiring := h2.wiring.trans h1.wiring
  resetCount := h2.resetCount.trans h1.resetCount
  installs := h2.installs.trans h1.installs

/-- A transfer that leaves the wiring. -/
theorem Moved.kept {s t : State} (h : Moved s t) (hw : t.wiring = s.wiring) : Kept s t where
  params := h.params
  userMemory := h.userMemory
  table := SameTable.of_table h.peripheralTable
  romMapping := h.romMapping
  runState := h.runState
  allocBits := h.allocBits
  allocMap := h.allocMap
  wiring := hw
  resetCount := h.resetCount
  installs := h.installs

theorem Kept.refl (s : State) : Kept s s := (Moved.refl s).kept rfl

theorem Kept.respond {s t : State} (h : Kept s t) (r : Response) : Kept s (t.respond r) :=
  h.trans { Kept.refl t with }

theorem Kept.raise (s : State) (f : FaultCode) (v : Int) : Kept s (s.raise f v) := (Kept.refl s).respond _

theorem Kept.interleave (s : State) : Kept s s.interleave := (Moved.interleave s).kept s.wiring_interleave

/-! ## Transfers (R185 to R187, R189) -/

@[simp] theorem baudDelay_wiring (e : EndpointId) (bytes t0 : Nat) (s : State) :
    (baudDelay e bytes t0 s).wiring = s.wiring := by
  unfold baudDelay
  split
  · rfl
  · have h := State.wiring_modifyEndpoint s.tick e
      (g := fun x => { x with delayAcc := (delayStep x.delayAcc bytes x.baud (s.tick.now - t0)).1 }) fun _ => rfl
    exact h

@[simp] theorem applyConsumed_wiring (e : EndpointId) (d : Device) (status : Option Int) (s : State) :
    (applyConsumed e d status s).wiring = s.wiring := by
  cases status <;> simp [applyConsumed]

@[simp] theorem writeoutEntered_wiring (f : EndpointId) (data : Bytes) (s : State) :
    (writeoutEntered f data s).wiring = s.wiring := by
  have h : ((s.tick.enterTransfer f).putReceivedLen f (min data.length Config.block)).wiring = s.wiring := by simp
  exact (State.wiring_congr rfl).trans h

theorem writeoutWith_kept {run : RunCommand} {f : EndpointId} {data : Bytes} {s t : State}
    (h : writeoutWith run f data s = .next t) : Kept s t := by
  refine (writeoutWith_frame h).1.kept ?_
  obtain ⟨x, y, r, -, -, -, rfl⟩ := writeoutWith_eq_next.mp h
  simp

theorem produceBlock_wiring {e f : EndpointId} {s t : State} {n : Nat} (h : produceBlock e f s = .next (t, n)) :
    t.wiring = s.wiring := by
  obtain ⟨x, data, d, -, -, hw, -⟩ := produceBlock_eq_next.mp h
  exact (writeoutWith_kept hw).wiring.trans (s.wiring_putDevice e d)

theorem startSend_kept {e : EndpointId} {s t : State} (h : startSend e s = .next t) : Kept s t := by
  refine (startSend_frame h).1.kept ?_
  rcases startSend_eq_next h with ⟨x, -, -, rfl⟩ | ⟨x, f, u, n, more, -, -, hp, -, rfl⟩
  · simp
  · simp [produceBlock_wiring hp]

theorem startRead_kept {e : EndpointId} {s t : State} (h : startRead e s = .next t) : Kept s t := by
  obtain ⟨x, -, ⟨-, rfl⟩ | ⟨f, -, h⟩⟩ := startRead_eq_next.mp h
  · exact Kept.refl _
  · exact startSend_kept h

theorem recvRound_kept {e peer : EndpointId} {s t : State} {payload : Bytes} {more : Bool}
    (h : recvRound e peer s = .next (t, payload, more)) : Kept s t := by
  obtain ⟨u, y, hu, rfl, -⟩ := recvRound_eq_next.mp h
  have h0 : Kept s { s with wire := none } := { Kept.refl s with }
  exact (h0.trans (startRead_kept hu)).trans (Kept.interleave u)

/-- The rule of the receive loop: what every round keeps holds where the loop ends with a message (R189). -/
theorem recvLoop_invariant {P : State → Prop} {e peer : EndpointId}
    (hround : ∀ s t payload more, P s → recvRound e peer s = .next (t, payload, more) → P t)
    {buf : Bytes} {s t : State} (hs : P s) (h : recvLoop e peer buf s = some (.next t)) :
    ∃ u b, P u ∧ t = u.respond (.bytes b) := by
  obtain ⟨turns, hw⟩ := recvLoop_eq_some_iff.mp h
  clear h
  induction turns generalizing buf s with
  | zero => exact nomatch hw
  | succ turns ih =>
    rw [recvWithin] at hw
    cases ht : recvTurn e peer buf s <;> rw [ht] at hw
    case inl r =>
      obtain rfl := Option.some.inj hw
      obtain ⟨u, payload, hr, rfl⟩ := recvTurn_eq_inl_next.mp ht
      exact ⟨u, _, hround _ _ _ _ hs hr, rfl⟩
    case inr next =>
      obtain ⟨payload, hr, -⟩ := recvTurn_eq_inr.mp ht
      exact ih (hround _ _ _ _ hs hr) hw

theorem recvMessage_kept {e peer : EndpointId} {x : Endpoint} {s t : State} (hx : s.endpoint? e = some x)
    (hp : x.recipient = some peer) (h : recvMessage e peer s = .next t) : Kept s t := by
  rw [recvMessage_eq hx hp] at h
  cases hl : recvLoop e peer [] s with
  | none => simp [hl] at h
  | some r =>
    obtain rfl : r = .next t := by simpa [hl] using h
    obtain ⟨u, b, hu, rfl⟩ :=
      recvLoop_invariant (P := Kept s) (fun _ _ _ _ hk hr => hk.trans (recvRound_kept hr)) (Kept.refl s) hl
    exact hu.respond _

/-! ## The registers of a serial port and the calls on cards -/

theorem pairView_kept {e : EndpointId} {s t : State} {v : BlockSize} (h : pairView e s = .next (t, v)) : Kept s t := by
  unfold pairView at h
  obtain ⟨x, -, h⟩ := withEndpoint_eq_next.mp h
  split at h
  · obtain ⟨rfl, -⟩ := Prod.mk.inj (Host.Outcome.next.inj h)
    exact Kept.refl _
  · obtain ⟨y, -, h⟩ := withEndpoint_eq_next.mp h
    obtain ⟨rfl, -⟩ := Prod.mk.inj (Host.Outcome.next.inj h)
    exact Kept.interleave s

theorem readPort_kept {r : PortRegister} {s t : State} {b : Byte} (h : readPort r s = .next (t, b)) : Kept s t := by
  cases r with
  | status e =>
    obtain ⟨x, -, h⟩ := withEndpoint_eq_next.mp h
    obtain ⟨rfl, -⟩ := Prod.mk.inj (Host.Outcome.next.inj h)
    exact (Kept.interleave s).trans (Kept.interleave _)
  | pairLow e | pairHigh e =>
    obtain ⟨⟨u, v⟩, hv, h⟩ := andThen_eq_next.mp h
    obtain ⟨rfl, -⟩ := Prod.mk.inj (Host.Outcome.next.inj h)
    exact pairView_kept hv

theorem writeStatus_kept {e : EndpointId} {v : Byte} {s t : State} (h : writeStatus e v s = .next t) : Kept s t := by
  obtain ⟨x, -, h⟩ := withEndpoint_eq_next.mp h
  have h0 : Kept s (s.putSendmode e (directionBit v)) := (Moved.modifyEndpoint s e _).kept (s.wiring_putSendmode e _)
  simp only at h
  split at h
  · split at h
    · exact h0.trans (startSend_kept h)
    · exact h0.trans (startRead_kept h)
  · obtain rfl := Host.Outcome.next.inj h
    exact h0

theorem rewriteBlockSize_kept {e : EndpointId} {g : BlockSize → BlockSize} {s t : State}
    (h : rewriteBlockSize e g s = .next t) : Kept s t := by
  obtain ⟨x, -, h⟩ := withEndpoint_eq_next.mp h
  obtain rfl := Host.Outcome.next.inj h
  exact (Kept.interleave s).trans ((Moved.putBlockSize ..).kept (State.wiring_putBlockSize ..))

theorem writePort_kept {r : PortRegister} {v : Byte} {s t : State} (h : writePort r v s = .next t) : Kept s t := by
  cases r with
  | status e => exact writeStatus_kept h
  | pairLow e => exact rewriteBlockSize_kept (g := fun b => writePairLow b v) h
  | pairHigh e => exact rewriteBlockSize_kept (g := fun b => writePairHigh b v) h

/-- A call on the card in a slot, as the lemmas about the calls give it: noted, and the card's own state perhaps changed. -/
theorem Kept.cardCall {s u : State} {k : Slot} {ent : Entry} {call : PeriCall} (hk : s.slot k = some ent)
    (h : u = s.note call ∨ ∃ c : Card, c.kind = ent.card.kind ∧ u = (s.note call).setCard k ent c) : Kept s u := by
  have hn : Kept s (s.note call) := { Kept.refl s with }
  obtain rfl | ⟨c, hc, rfl⟩ := h
  · exact hn
  · exact hn.trans { Kept.refl (s.note call) with table := SameTable.setCard hk hc }

theorem cardMmioRead_kept {j : Slot} {ent : Entry} {m : Nat} {s t : State} {v : Option Byte} (hj : s.slot j = some ent)
    (h : cardMmioRead j ent m s = .next (t, v)) : Kept s t := by
  obtain ⟨u, hu, rfl | ⟨r, b, hr, -⟩⟩ := cardMmioRead_next h
  · exact Kept.cardCall hj hu
  · exact (Kept.cardCall hj hu).trans (readPort_kept hr)

theorem cardMmioWrite_kept {j : Slot} {ent : Entry} {m : Nat} {byte : Byte} {s t : State} (hj : s.slot j = some ent)
    (h : cardMmioWrite j ent m byte s = .next t) : Kept s t := by
  obtain ⟨u, hu, rfl | ⟨r, hr⟩⟩ := cardMmioWrite_next h
  · exact Kept.cardCall hj hu
  · exact (Kept.cardCall hj hu).trans (writePort_kept hr)

/-! ## READ and WRITE (R130, R131) -/

theorem ackAfter_eq_next {r : Res State} {t : State} :
    ackAfter r = .next t ↔ ∃ u, r = .next u ∧ t = u.respond .ack := by
  simp only [ackAfter, andThen_eq_next, Host.Outcome.next.injEq, eq_comm (a := t)]

theorem dataAfter_eq_next {r : Res (State × Option Byte)} {t : State} :
    dataAfter r = .next t ↔ ∃ u v, r = .next (u, v) ∧ t = u.respond (.data (byteOrFF v)) := by
  simp only [dataAfter, andThen_eq_next, Prod.exists, Host.Outcome.next.injEq, eq_comm (a := t)]

/-- An address decodes to user RAM only where it is the offset itself, below `memsize` (R66). -/
theorem decodeAddress_eq_user {memsize a : Nat} {addr : Int} (h : decodeAddress memsize addr = .user a) :
    addr = a ∧ a < memsize := by
  unfold decodeAddress at h
  simp only at h
  split at h
  · rename_i hr
    obtain rfl := Target.user.inj h
    omega
  · split at h
    · split at h <;> exact nomatch h
    · exact nomatch h

theorem readMmio_kept {addr : Int} {j : Slot} {w : Nat} {s t : State} (h : readMmio addr j w s = .next t) : Kept s t := by
  unfold readMmio at h
  split at h
  · obtain rfl := Host.Outcome.next.inj h
    exact Kept.raise ..
  · rename_i ent hj
    split at h
    · obtain rfl := Host.Outcome.next.inj h
      exact (Kept.refl s).respond _
    · obtain ⟨u, v, hu, rfl⟩ := dataAfter_eq_next.mp h
      exact (cardMmioRead_kept hj hu).respond _

theorem readRam_kept {addr : Int} {k : Slot} {off : Nat} {s t : State} (h : readRam addr k off s = .next t) : Kept s t := by
  unfold readRam at h
  split at h
  · obtain rfl := Host.Outcome.next.inj h
    exact Kept.raise ..
  · rename_i ent hk
    split at h
    · obtain rfl := Host.Outcome.next.inj h
      exact Kept.raise ..
    · obtain ⟨u, v, hu, rfl⟩ := dataAfter_eq_next.mp h
      exact (Kept.cardCall hk (cardPeek_next hu)).respond _

theorem writeMmio_kept {addr : Int} {byte : Byte} {j : Slot} {w : Nat} {s t : State}
    (h : writeMmio addr byte j w s = .next t) : Kept s t := by
  unfold writeMmio at h
  split at h
  · obtain rfl := Host.Outcome.next.inj h
    exact Kept.raise ..
  · rename_i ent hj
    split at h
    · obtain rfl := Host.Outcome.next.inj h
      exact (Kept.refl s).respond _
    · obtain ⟨u, hu, rfl⟩ := ackAfter_eq_next.mp h
      exact (cardMmioWrite_kept hj hu).respond _

theorem writeRam_kept {addr : Int} {byte : Byte} {k : Slot} {off : Nat} {s t : State}
    (h : writeRam addr byte k off s = .next t) : Kept s t := by
  unfold writeRam at h
  split at h
  · obtain rfl := Host.Outcome.next.inj h
    exact Kept.raise ..
  · rename_i ent hk
    split at h
    · obtain rfl := Host.Outcome.next.inj h
      exact Kept.raise ..
    · obtain ⟨u, hu, rfl⟩ := ackAfter_eq_next.mp h
      exact (Kept.cardCall hk (cardPoke_next hu)).respond _

theorem execRead_kept {addr : Int} {s t : State} (h : execRead addr s = .next t) : Kept s t := by
  obtain ⟨-, h⟩ := requireRunning_eq_next.mp h
  split at h
  · obtain rfl := Host.Outcome.next.inj h
    exact (Kept.refl s).respond _
  · exact readMmio_kept h
  · exact readRam_kept h
  · obtain rfl := Host.Outcome.next.inj h
    exact Kept.raise ..

/-- WRITE changes user RAM at its address, or keeps everything (R131). -/
theorem execWrite_eq_next {addr : Int} {byte : Byte} {s t : State} (h : execWrite addr byte s = .next t) :
    (∃ a : Nat, addr = a ∧ a < s.memsize ∧ t = (s.writeUser a byte).respond .ack) ∨ Kept s t := by
  obtain ⟨-, h⟩ := requireRunning_eq_next.mp h
  split at h
  · rename_i a ha
    obtain ⟨haddr, hlt⟩ := decodeAddress_eq_user ha
    exact .inl ⟨a, haddr, hlt, (Host.Outcome.next.inj h).symm⟩
  · exact .inr (writeMmio_kept h)
  · exact .inr (writeRam_kept h)
  · obtain rfl := Host.Outcome.next.inj h
    exact .inr (Kept.raise ..)

/-! ## The allocator's operations (R161, R163) -/

/-- MALLOC takes the first fit, or answers a fault (R161). -/
theorem execMalloc_eq_next {size : Int} {s t : State} (h : execMalloc size s = .next t) :
    (∃ i, 0 < size ∧ firstFit s.allocBits (unitsOf size) = some i ∧ t = s.allocate i (unitsOf size)) ∨ Kept s t := by
  obtain ⟨-, h⟩ := requireRunning_eq_next.mp h
  split at h
  · obtain rfl := Host.Outcome.next.inj h
    exact .inr (Kept.raise ..)
  · rename_i hpos
    split at h
    · obtain rfl := Host.Outcome.next.inj h
      exact .inr (Kept.raise ..)
    · rename_i i hi
      exact .inl ⟨i, not_le.mp hpos, hi, (Host.Outcome.next.inj h).symm⟩

/-- FREE releases a live allocation, or answers a fault (R163). -/
theorem execFree_eq_next {offset : Int} {s t : State} (h : execFree offset s = .next t) :
    (∃ i n, offset = (Config.unitBytes * i : Nat) ∧ s.allocMap.lookup i = some n ∧ t = s.release i n) ∨ Kept s t := by
  obtain ⟨-, h⟩ := requireRunning_eq_next.mp h
  split at h
  · obtain rfl := Host.Outcome.next.inj h
    exact .inr (Kept.raise ..)
  · rename_i hoff
    simp only at h
    split at h
    · obtain rfl := Host.Outcome.next.inj h
      exact .inr (Kept.raise ..)
    · rename_i n hn
      refine .inl ⟨_, n, ?_, hn, (Host.Outcome.next.inj h).symm⟩
      simp only [Config.unitBytes] at hoff ⊢
      omega

/-! ## The operations on links, the commands, the address decode -/

/-- An operation that ends with `Ack` keeps what its transfer keeps. -/
theorem ackAfter_kept {r : Res State} {s t : State} (hr : ∀ u, r = .next u → Kept s u)
    (h : requireRunning s (ackAfter r) = .next t) : Kept s t := by
  obtain ⟨-, h⟩ := requireRunning_eq_next.mp h
  obtain ⟨u, hu, rfl⟩ := ackAfter_eq_next.mp h
  exact (hr u hu).respond _

theorem commandTransfer_kept {run : RunCommand} {e : EndpointId} {payload : Bytes} {s t : State}
    (h : commandTransfer run e payload s = .next t) : Kept s t :=
  ackAfter_kept (fun _ => writeoutWith_kept) h

theorem answerTarget_kept {target : Target} {s t : State} (h : answerTarget target s = .next t) : Kept s t := by
  obtain rfl := Host.Outcome.next.inj h
  exact (Kept.refl s).respond _

theorem execCable_kept {e : EndpointId} {s t : State} (h : execCable e s = .next t) : Kept s t := by
  obtain ⟨-, h⟩ := requireRunning_eq_next.mp h
  obtain ⟨x, -, h⟩ := withEndpoint_eq_next.mp h
  obtain rfl := Host.Outcome.next.inj h
  exact (Kept.refl s).respond _

theorem execHasNext_kept {e : EndpointId} {s t : State} (h : execHasNext e s = .next t) : Kept s t := by
  obtain ⟨-, h⟩ := requireRunning_eq_next.mp h
  obtain ⟨b, -, h⟩ := andThen_eq_next.mp h
  obtain rfl := Host.Outcome.next.inj h
  exact (Kept.refl s).respond _

theorem execRecvMessage_kept {e : EndpointId} {s t : State} (h : execRecvMessage e s = .next t) : Kept s t := by
  obtain ⟨-, h⟩ := requireRunning_eq_next.mp h
  obtain ⟨x, hx, h⟩ := withEndpoint_eq_next.mp h
  split at h
  · obtain rfl := Host.Outcome.next.inj h
    exact (Kept.refl s).respond _
  · rename_i f hf
    exact recvMessage_kept hx hf h

/-- ATTACH of two endpoints (R182). -/
def State.attach (s : State) (e f : EndpointId) : State :=
  (s.modifyEndpoint e (fun x => { x with recipient := some f })).modifyEndpoint f (fun x => { x with recipient := some e })

/-- DETACH of an endpoint (R183). -/
def State.detach (s : State) (e : EndpointId) : State := s.modifyEndpoint e (fun x => { x with recipient := none })

/-- ATTACH answers exactly for two different endpoints that exist (R182, U9). -/
theorem execAttach_eq_next {e f : EndpointId} {s t : State} :
    execAttach e f s = .next t ↔
      e ≠ f ∧ (∃ x y, s.endpoint? e = some x ∧ s.endpoint? f = some y) ∧ t = (s.attach e f).respond .ack := by
  unfold execAttach
  split
  · rename_i hef
    simp [hef]
  · rename_i hef
    simp only [withEndpoint_eq_next, Host.Outcome.next.injEq]
    constructor
    · rintro ⟨x, hx, y, hy, rfl⟩
      exact ⟨hef, ⟨x, y, hx, hy⟩, rfl⟩
    · rintro ⟨-, ⟨x, y, hx, hy⟩, rfl⟩
      exact ⟨x, hx, y, hy, rfl⟩

/-- DETACH answers exactly for an endpoint that exists (R183). -/
theorem execDetach_eq_next {e : EndpointId} {s t : State} :
    execDetach e s = .next t ↔ (∃ x, s.endpoint? e = some x) ∧ t = (s.detach e).respond .ack := by
  unfold execDetach
  simp only [withEndpoint_eq_next, Host.Outcome.next.injEq, exists_and_right]
  exact and_congr_right fun _ => eq_comm

/-! ## The configuration operations (R140, R141) -/

/-- INSTALL answers exactly while HALTED, with operands inside their bounds, when the card before it returns (R140, U13). -/
theorem execInstall_eq_next {k : Nat} {card : Peripheral} {ram mmio irqs : Int} {s t : State} :
    execInstall k card ram mmio irqs s = .next t ↔
      s.runState = .halted ∧ installBounds k ram mmio irqs = true ∧ ∃ u, disposeSlot (Fin.ofNat 8 k) s = .next u ∧
        t = (placeCard (Fin.ofNat 8 k) card ram.toNat mmio.toNat irqs.toNat u).respond .ack := by
  unfold execInstall
  rw [requireHalted_eq_next]
  refine and_congr_right fun _ => ?_
  split <;> rename_i hb
  · simp only [andThen_eq_next, Host.Outcome.next.injEq, hb, true_and, eq_comm (a := t)]
  · simp [hb]

/-- REMOVE answers exactly while HALTED, for one of the eight slots, when the card returns (R141). -/
theorem execRemove_eq_next {k : Nat} {s t : State} :
    execRemove k s = .next t ↔
      s.runState = .halted ∧ k < 8 ∧ ∃ u, disposeSlot (Fin.ofNat 8 k) s = .next u ∧ t = u.respond .ack := by
  unfold execRemove
  rw [requireHalted_eq_next]
  refine and_congr_right fun _ => ?_
  split <;> rename_i hk
  · simp only [andThen_eq_next, Host.Outcome.next.injEq, hk, true_and, eq_comm (a := t)]
  · simp [hk]

/-! ## What an operation can do -/

/-- What an operation makes of the structure of the machine. The constructors after the first are its only writers. -/
inductive Effect : Instr → State → State → Prop
  | kept {i : Instr} {s t : State} (h : Kept s t) : Effect i s t
  | written {s : State} {a : Nat} (v : Byte) (h : a < s.memsize) :
    Effect (.write a v) s ((s.writeUser a v).respond .ack)
  | allocated {s : State} {size : Int} {i : Nat} (hsize : 0 < size) (h : firstFit s.allocBits (unitsOf size) = some i) :
    Effect (.malloc size) s (s.allocate i (unitsOf size))
  | released {s : State} {i n : Nat} (h : s.allocMap.lookup i = some n) :
    Effect (.free (Config.unitBytes * i : Nat)) s (s.release i n)
  | attached {s : State} {e f : EndpointId} (h : e ≠ f) : Effect (.attach e f) s ((s.attach e f).respond .ack)
  | detached {s : State} {e : EndpointId} : Effect (.detach e) s ((s.detach e).respond .ack)
  | installed {s u : State} {k : Nat} {card : Peripheral} {ram mmio irqs : Int} (hrun : s.runState = .halted)
    (hbounds : installBounds k ram mmio irqs = true) (h : disposeSlot (Fin.ofNat 8 k) s = .next u) :
    Effect (.install k card ram mmio irqs) s
      ((placeCard (Fin.ofNat 8 k) card ram.toNat mmio.toNat irqs.toNat u).respond .ack)
  | removed {s u : State} {k : Nat} (hrun : s.runState = .halted) (hk : k < 8)
    (h : disposeSlot (Fin.ofNat 8 k) s = .next u) : Effect (.remove k) s (u.respond .ack)
  | started {s : State} : Effect .start s ({ s with runState := .running }.respond .ack)
  | halted {s : State} : Effect .halt s ({ s with runState := .halted }.respond .ack)
  | reset {s : State} : Effect .reset s (s.afterReset.respond .ack)

/-- Every operation that answers has one of the effects. -/
theorem exec_effect {i : Instr} {s t : State} (h : exec i s = .next t) : Effect i s t := by
  cases i with
  | read addr => exact .kept (execRead_kept h)
  | write addr byte =>
    obtain ⟨a, rfl, ha, rfl⟩ | hk := execWrite_eq_next h
    · exact .written byte ha
    · exact .kept hk
  | malloc size =>
    obtain ⟨j, hsize, hj, rfl⟩ | hk := execMalloc_eq_next h
    · exact .allocated hsize hj
    · exact .kept hk
  | free offset =>
    obtain ⟨j, n, rfl, hn, rfl⟩ | hk := execFree_eq_next h
    · exact .released hn
    · exact .kept hk
  | attach e f =>
    obtain ⟨hef, -, rfl⟩ := execAttach_eq_next.mp h
    exact .attached hef
  | detach e =>
    obtain ⟨-, rfl⟩ := execDetach_eq_next.mp h
    exact .detached
  | cable e => exact .kept (execCable_kept h)
  | startSend e => exact .kept (ackAfter_kept (fun _ => startSend_kept) h)
  | startRead e => exact .kept (ackAfter_kept (fun _ => startRead_kept) h)
  | writeout e data => exact .kept (ackAfter_kept (fun _ => writeoutWith_kept) h)
  | hasNext e => exact .kept (execHasNext_kept h)
  | recvMessage e => exact .kept (execRecvMessage_kept h)
  | install k card ram mmio irqs =>
    obtain ⟨hrun, hb, u, hu, rfl⟩ := execInstall_eq_next.mp h
    exact .installed hrun hb hu
  | remove k =>
    obtain ⟨hrun, hk, u, hu, rfl⟩ := execRemove_eq_next.mp h
    exact .removed hrun hk hu
  | start =>
    obtain rfl := Host.Outcome.next.inj h
    exact .started
  | halt =>
    obtain rfl := Host.Outcome.next.inj h
    exact .halted
  | reset =>
    obtain rfl := Host.Outcome.next.inj h
    exact .reset
  | addrUser _ | addrMmio0 _ | addrMmio1 _ | addrMmio2 _ | addrMmio3 _ | addrMmio4 _ | addrMmio5 _ | addrMmio6 _
  | addrMmio7 _ | addrRam1 _ | addrRam2 _ | addrRam3 _ | addrRam4 _ | addrRam5 _ | addrRam6 _ | addrRam7 _ =>
    exact .kept (answerTarget_kept h)
  | cmdDevrst _ _ | cmdDevstu _ _ | cmdDevtyp _ _ | cmdDevnam _ _ | cmdOpenr _ _ _ | cmdOpenw _ _ _ | cmdOpena _ _ _
  | cmdRead _ _ | cmdWrite _ _ _ | cmdClose _ _ | cmdDelete _ _ | cmdMkdir _ _ | cmdMkfile _ _ | cmdTouch _ _
  | cmdListfiles _ _ | cmdGetlen _ _ =>
    exact .kept (commandTransfer_kept h)

/-! ## What a step can do -/

theorem loadTx_kept {e : EndpointId} {bytes : Bytes} {s t : State} (h : loadTx e bytes s = .next t) : Kept s t := by
  obtain ⟨x, -, h⟩ := withEndpoint_eq_next.mp h
  split at h
  · obtain rfl := Host.Outcome.next.inj h
    exact (Moved.modifyEndpoint s e _).kept (s.wiring_putDevice e _)
  · exact nomatch h
  · exact nomatch h

/-- A request that is no operation keeps everything, where it is answered at all (R109). -/
theorem rejectRequest_kept {r : Request} {why : DecodeError} {s t : State} (h : rejectRequest r why s = .next t) :
    Kept s t := by
  unfold rejectRequest at h
  split at h
  · exact commandTransfer_kept h
  · exact answerTarget_kept h
  · exact nomatch h

/-- A step keeps everything, or it is one operation after what agents have written (log 1, log 9). -/
theorem step_eq_next {s t : State} (h : step s = .next t) : Kept s t ∨ ∃ u i, Kept s u ∧ exec i u = .next t := by
  unfold step advance at h
  split at h
  · obtain rfl := Host.Outcome.next.inj h
    exact .inl (Kept.interleave s)
  · rename_i input rest _
    have hu : Kept s { s.interleave with pending := rest, periCalls := [] } :=
      (Kept.interleave s).trans { Kept.refl s.interleave with }
    cases input with
    | loadTx e bytes => exact .inl (hu.trans (loadTx_kept h))
    | request r =>
      simp only [acceptInput, present] at h
      split at h
      · exact .inr ⟨_, _, hu, h⟩
      · exact .inl (hu.trans (rejectRequest_kept h))

end Sys2Proof.Machine
end

section
/-! User RAM, the declared sizes and the cables keep their form (R8, R22, R23, R31, R140, R182): each invariant along every
`Effect`, and so along every step. -/

namespace Sys2Proof.Machine

/-! ## User RAM -/

theorem MemoryInv.of_kept {s t : State} (hs : MemoryInv s) (h : Kept s t) : MemoryInv t := by
  unfold MemoryInv State.memsize
  rw [h.userMemory, h.params]
  exact hs

theorem MemoryInv.respond {s : State} (hs : MemoryInv s) (r : Response) : MemoryInv (s.respond r) := hs

theorem MemoryInv.writeUser {s : State} (hs : MemoryInv s) {a : Nat} (ha : a < s.memsize) (v : Byte) :
    MemoryInv (s.writeUser a v) := by
  obtain ⟨hwf, hin⟩ := hs
  refine ⟨Memory.wf_write hwf a v, fun c hc => ?_⟩
  rcases Memory.mem_write hc with hca | hc
  · exact hca ▸ ha
  · exact hin c hc

theorem MemoryInv.disposeSlot {s t : State} {k : Slot} (hs : MemoryInv s) (h : disposeSlot k s = .next t) :
    MemoryInv t := by
  obtain ⟨-, rfl⟩ | ⟨-, rfl⟩ := disposeSlot_next h <;> exact hs

theorem MemoryInv.placeCard {s : State} (hs : MemoryInv s) (k : Slot) (card : Peripheral) (ram mmio irqs : Nat) :
    MemoryInv (placeCard k card ram mmio irqs s) := hs

theorem MemoryInv.effect {i : Instr} {s t : State} (hs : MemoryInv s) (h : Effect i s t) : MemoryInv t := by
  cases h with
  | kept h => exact hs.of_kept h
  | written v ha => exact hs.writeUser ha v
  | installed _ _ h => exact ((hs.disposeSlot h).placeCard _ _ _ _ _).respond _
  | removed _ _ h => exact (hs.disposeSlot h).respond _
  | reset => exact ⟨Memory.wf_nil, fun c hc => absurd hc List.not_mem_nil⟩
  | allocated | released | attached | detached | started | halted => exact hs

/-! ## The declared sizes -/

theorem TableInv.of_sameTable {s t : State} (hs : TableInv s) (h : SameTable s t) : TableInv t := by
  intro k ent hk
  have hd := h k
  rw [hk, Option.map_some, eq_comm, Option.map_eq_some_iff] at hd
  obtain ⟨old, hold, hd⟩ := hd
  simp only [Entry.declared, Prod.mk.injEq] at hd
  obtain ⟨-, hram, hmmio, -⟩ := hd
  rw [← hram, ← hmmio]
  exact hs k old hold

theorem TableInv.respond {s : State} (hs : TableInv s) (r : Response) : TableInv (s.respond r) := hs

theorem TableInv.setSlot {s : State} (hs : TableInv s) (k : Slot) {c : Option Entry}
    (hc : ∀ ent, c = some ent → ent.periMemSize ≤ Config.reserve ∧ ent.mmioSize ≤ Config.mmioWin) :
    TableInv (s.setSlot k c) := by
  intro j ent hj
  by_cases hjk : j = k
  · rw [hjk, State.slot_setSlot_same] at hj
    exact hc ent hj
  · rw [State.slot_setSlot_other s c hjk] at hj
    exact hs j ent hj

theorem TableInv.disposeSlot {s t : State} {k : Slot} (hs : TableInv s) (h : disposeSlot k s = .next t) : TableInv t := by
  obtain ⟨-, rfl⟩ | ⟨-, rfl⟩ := disposeSlot_next h
  · exact hs
  · have hn : TableInv (s.note (.dispose k)) := hs
    exact hn.setSlot k fun _ hc => nomatch hc

theorem TableInv.placeCard {s : State} (hs : TableInv s) (k : Slot) (card : Peripheral) {ram mmio : Nat} (irqs : Nat)
    (hram : ram ≤ Config.reserve) (hmmio : mmio ≤ Config.mmioWin) : TableInv (placeCard k card ram mmio irqs s) := by
  have hc : TableInv (createEndpoints k card s) := hs
  exact hc.setSlot k fun ent he => Option.some.inj he ▸ ⟨hram, hmmio⟩

theorem TableInv.effect {i : Instr} {s t : State} (hs : TableInv s) (h : Effect i s t) : TableInv t := by
  cases h with
  | kept h => exact hs.of_sameTable h.table
  | installed _ hb h =>
    obtain ⟨-, -, hram, -, hmmio, -⟩ := of_decide_eq_true hb
    exact ((hs.disposeSlot h).placeCard _ _ _ (Int.toNat_le.mpr hram) (Int.toNat_le.mpr hmmio)).respond _
  | removed _ _ h => exact (hs.disposeSlot h).respond _
  | written | allocated | released | attached | detached | started | halted | reset => exact hs

/-! ## The cables -/

/-- Whether an endpoint is its own peer stands in the wiring. -/
theorem CableInv.of_wiring {s t : State} (hs : CableInv s) (h : t.wiring = s.wiring) : CableInv t := by
  intro p hp
  have hw : (p.1, p.2.wiring) ∈ s.wiring := h ▸ List.mem_map_of_mem hp
  obtain ⟨q, hq, hqp⟩ := List.mem_map.mp hw
  simp only [Endpoint.wiring, Prod.mk.injEq] at hqp
  obtain ⟨hid, -, -, -, -, -, hrec⟩ := hqp
  rw [← hid, ← hrec]
  exact hs q hq

theorem CableInv.respond {s : State} (hs : CableInv s) (r : Response) : CableInv (s.respond r) := hs

theorem CableInv.modifyEndpoint {s : State} (hs : CableInv s) (e : EndpointId) {g : Endpoint → Endpoint}
    (hg : ∀ x, (g x).recipient ≠ some e) : CableInv (s.modifyEndpoint e g) := by
  intro p hp
  obtain ⟨q, hq, rfl⟩ := List.mem_map.mp hp
  split
  · rename_i hqe
    exact hqe ▸ hg q.2
  · exact hs q hq

theorem CableInv.attach {s : State} (hs : CableInv s) {e f : EndpointId} (h : e ≠ f) : CableInv (s.attach e f) :=
  (hs.modifyEndpoint e fun _ hr => h (Option.some.inj hr).symm).modifyEndpoint f fun _ hr => h (Option.some.inj hr)

theorem CableInv.detach {s : State} (hs : CableInv s) (e : EndpointId) : CableInv (s.detach e) :=
  hs.modifyEndpoint e fun _ => nofun

theorem CableInv.disposeSlot {s t : State} {k : Slot} (hs : CableInv s) (h : disposeSlot k s = .next t) : CableInv t := by
  obtain ⟨-, rfl⟩ | ⟨-, rfl⟩ := disposeSlot_next h
  · exact hs
  · exact fun p hp => hs p (List.mem_of_mem_filter hp)

theorem mem_putEndpoint {e : EndpointId} {x : Endpoint} {l : List (EndpointId × Endpoint)} {p : EndpointId × Endpoint}
    (h : p ∈ putEndpoint e x l) : p = (e, x) ∨ p ∈ l := by
  induction l with
  | nil => exact .inl (List.mem_singleton.mp h)
  | cons q rest ih =>
    obtain ⟨f, y⟩ := q
    unfold putEndpoint at h
    split at h
    · exact List.mem_cons.mp h
    · split at h
      · exact (List.mem_cons.mp h).imp_right (List.mem_cons_of_mem _)
      · rcases List.mem_cons.mp h with rfl | h
        · exact .inr List.mem_cons_self
        · exact (ih h).imp_right (List.mem_cons_of_mem _)

/-- Every endpoint after a card's own were created was there before, or is one of those in its reset state (R140). -/
theorem mem_createEndpoints {k : Slot} {card : Peripheral} {s : State} {p : EndpointId × Endpoint}
    (h : p ∈ (createEndpoints k card s).endpoints) : p ∈ s.endpoints ∨ ∃ b : EndpointBuild, p.2 = b.construct (some k) := by
  unfold createEndpoints at h
  simp only at h
  generalize (s.params.cardEndpoints.lookup card).getD [] = made at h
  generalize s.endpoints = l at h ⊢
  induction made generalizing l with
  | nil => exact .inl h
  | cons b rest ih =>
    rcases ih _ h with h | h
    · rcases mem_putEndpoint h with rfl | h
      · exact .inr ⟨b.2, rfl⟩
      · exact .inl h
    · exact .inr h

theorem CableInv.placeCard {s : State} (hs : CableInv s) (k : Slot) (card : Peripheral) (ram mmio irqs : Nat) :
    CableInv (placeCard k card ram mmio irqs s) := by
  intro p hp
  rcases mem_createEndpoints hp with hp | ⟨b, hb⟩
  · exact hs p hp
  · rw [hb]
    exact nofun

theorem CableInv.afterReset {s : State} (hs : CableInv s) : CableInv s.afterReset := by
  intro p hp
  obtain ⟨q, hq, rfl⟩ := List.mem_map.mp hp
  exact hs q hq

theorem CableInv.effect {i : Instr} {s t : State} (hs : CableInv s) (h : Effect i s t) : CableInv t := by
  cases h with
  | kept h => exact hs.of_wiring h.wiring
  | attached hef => exact hs.attach hef
  | detached => exact hs.detach _
  | installed _ _ h => exact ((hs.disposeSlot h).placeCard _ _ _ _ _).respond _
  | removed _ _ h => exact (hs.disposeSlot h).respond _
  | reset => exact hs.afterReset
  | written | allocated | released | started | halted => exact hs

/-! ## Every step -/

/-- Settles O60: each of the three invariants holds along whatever agents write, and along every `Effect`. -/
theorem structureInvKept : Obligations.StructureInvKept := by
  rintro s t ⟨hmem, htable, hcable⟩ h
  obtain hk | ⟨u, i, hk, hi⟩ := step_eq_next h
  · exact ⟨hmem.of_kept hk, htable.of_sameTable hk.table, hcable.of_wiring hk.wiring⟩
  · have he := exec_effect hi
    exact ⟨(hmem.of_kept hk).effect he, (htable.of_sameTable hk.table).effect he, (hcable.of_wiring hk.wiring).effect he⟩

end Sys2Proof.Machine
end

section
/-! The allocator's invariant (R29) along every `Effect`: first fit takes a run that no live allocation meets (R161, R162), and
FREE clears exactly the run of the allocation it takes off the table (R163). -/

namespace Sys2Proof.Machine

/-! ## The bits of a run -/

/-- A bit is set after a run was set exactly when it lies in the run, inside the bitset, or was set before. -/
theorem setRun_true_eq_some {bits : List Bool} {i n j : Nat} (hin : i + n ≤ bits.length) :
    (setRun bits i n true)[j]? = some true ↔ (i ≤ j ∧ j < i + n) ∨ bits[j]? = some true := by
  rw [setRun_getElem?]
  split
  · rename_i hj
    simp [List.getElem?_eq_getElem (show j < bits.length by omega), hj]
  · rename_i hj
    simp [hj]

/-- A bit is set after a run was cleared exactly when it was set before and lies outside the run. -/
theorem setRun_false_eq_some {bits : List Bool} {i n j : Nat} :
    (setRun bits i n false)[j]? = some true ↔ bits[j]? = some true ∧ ¬(i ≤ j ∧ j < i + n) := by
  rw [setRun_getElem?]
  split <;> simp_all

/-- A positive size takes at least one unit (R161). -/
theorem unitsOf_pos {size : Int} (h : 0 < size) : 1 ≤ unitsOf size := by
  simp only [unitsOf, Config.unitBytes]
  omega

/-! ## What keeps the invariant -/

/-- The invariant speaks of the parameters, the bits and the table only. -/
theorem AllocInv.congr {s t : State} (hs : AllocInv s) (hparams : t.params = s.params) (hbits : t.allocBits = s.allocBits)
    (hmap : t.allocMap = s.allocMap) : AllocInv t := by
  unfold AllocInv State.memsize
  rw [hparams, hbits, hmap]
  exact hs

theorem AllocInv.of_kept {s t : State} (hs : AllocInv s) (h : Kept s t) : AllocInv t :=
  hs.congr h.params h.allocBits h.allocMap

/-- A live allocation does not meet a clear run (R161, R164). -/
theorem AllocInv.apart_of_clearRun {s : State} (hs : AllocInv s) {i n : Nat} (hn : 1 ≤ n)
    (hclear : clearRun s.allocBits i n = true) {p : Nat × Nat} (hp : p ∈ s.allocMap) :
    i + n ≤ p.1 ∨ p.1 + p.2 ≤ i := by
  obtain ⟨-, hlive, -, -⟩ := hs
  obtain ⟨hpos, -, hset⟩ := hlive p hp
  rw [clearRun_iff] at hclear
  by_contra hmeet
  exact hclear (max i p.1) (by omega) (by omega) (hset _ (by omega) (by omega))

/-- Two live allocations are the same or apart (R164). -/
theorem AllocInv.eq_or_apart {s : State} (hs : AllocInv s) {p q : Nat × Nat} (hp : p ∈ s.allocMap)
    (hq : q ∈ s.allocMap) : p = q ∨ p.1 + p.2 ≤ q.1 ∨ q.1 + q.2 ≤ p.1 := by
  obtain ⟨-, -, hdisj, -⟩ := hs
  have hsymm : Std.Symm fun p q : Nat × Nat => p.1 + p.2 ≤ q.1 ∨ q.1 + q.2 ≤ p.1 := ⟨fun _ _ h => h.symm⟩
  by_cases hpq : p = q
  · exact .inl hpq
  · exact .inr (hdisj.forall hp hq hpq)

/-- MALLOC's effect keeps the invariant (R161). -/
theorem AllocInv.allocate {s : State} (hs : AllocInv s) {i n : Nat} (hn : 1 ≤ n)
    (hfit : firstFit s.allocBits n = some i) : AllocInv (s.allocate i n) := by
  obtain ⟨hin, hclear, -⟩ := firstFit_eq_some.mp hfit
  have hapart := fun p hp => hs.apart_of_clearRun hn hclear (p := p) hp
  obtain ⟨hlen, hlive, hdisj, hcover⟩ := hs
  have hbit := fun j => setRun_true_eq_some (j := j) hin
  refine ⟨(setRun_length ..).trans hlen, fun p hp => ?_, List.pairwise_cons.mpr ⟨hapart, hdisj⟩, fun j hj => ?_⟩
  · obtain rfl | hp := List.mem_cons.mp hp
    · exact ⟨hn, hlen ▸ hin, fun j h1 h2 => (hbit j).mpr (.inl ⟨h1, h2⟩)⟩
    · obtain ⟨hpos, hend, hset⟩ := hlive p hp
      exact ⟨hpos, hend, fun j h1 h2 => (hbit j).mpr (.inr (hset j h1 h2))⟩
  · obtain hj | hj := (hbit j).mp hj
    · exact ⟨(i, n), List.mem_cons_self, hj⟩
    · obtain ⟨p, hp, hpj⟩ := hcover j hj
      exact ⟨p, List.mem_cons_of_mem _ hp, hpj⟩

/-- FREE's effect keeps the invariant: no other live allocation begins at the unit (R163). -/
theorem AllocInv.release {s : State} (hs : AllocInv s) {i n : Nat} (hlook : s.allocMap.lookup i = some n) :
    AllocInv (s.release i n) := by
  have hmem : (i, n) ∈ s.allocMap := by
    obtain ⟨l₁, l₂, hl, -⟩ := List.lookup_eq_some_iff.mp hlook
    simp [hl]
  have hapart := fun p hp => hs.eq_or_apart (p := p) hp hmem
  obtain ⟨hlen, hlive, hdisj, hcover⟩ := hs
  obtain ⟨hn, -, -⟩ := hlive _ hmem
  have hkept : ∀ p, p ∈ (s.release i n).allocMap ↔ p ∈ s.allocMap ∧ p.1 ≠ i := by
    simp [State.release]
  have hbit : ∀ j, (s.release i n).allocBits[j]? = some true ↔ s.allocBits[j]? = some true ∧ ¬(i ≤ j ∧ j < i + n) :=
    fun j => setRun_false_eq_some
  refine ⟨(setRun_length ..).trans hlen, fun p hp => ?_, hdisj.filter _, fun j hj => ?_⟩
  · obtain ⟨hp, hpi⟩ := (hkept p).mp hp
    obtain ⟨hpos, hend, hset⟩ := hlive p hp
    obtain rfl | hp' := hapart p hp
    · exact absurd rfl hpi
    · exact ⟨hpos, hend, fun j h1 h2 => (hbit j).mpr ⟨hset j h1 h2, by omega⟩⟩
  · obtain ⟨hj, hout⟩ := (hbit j).mp hj
    obtain ⟨p, hp, hpj⟩ := hcover j hj
    refine ⟨p, (hkept p).mpr ⟨hp, fun hpi => ?_⟩, hpj⟩
    obtain rfl | hp' := hapart p hp
    · exact hout hpj
    · obtain ⟨hpos, -, -⟩ := hlive p hp
      omega

/-- An empty allocator meets the invariant (R321). -/
theorem AllocInv.of_empty {s : State} (hbits : s.allocBits = List.replicate (nunits s.memsize) false)
    (hmap : s.allocMap = []) : AllocInv s := by
  unfold AllocInv
  rw [hbits, hmap]
  exact ⟨List.length_replicate, by simp, List.Pairwise.nil, by simp [List.getElem?_replicate]⟩

theorem AllocInv.disposeSlot {s t : State} {k : Slot} (hs : AllocInv s) (h : disposeSlot k s = .next t) : AllocInv t := by
  obtain ⟨-, rfl⟩ | ⟨-, rfl⟩ := disposeSlot_next h <;> exact hs

theorem AllocInv.effect {i : Instr} {s t : State} (hs : AllocInv s) (h : Effect i s t) : AllocInv t := by
  cases h with
  | kept h => exact hs.of_kept h
  | allocated hsize h => exact hs.allocate (unitsOf_pos hsize) h
  | released h => exact hs.release h
  | installed _ _ h => exact (hs.disposeSlot h).congr rfl rfl rfl
  | removed _ _ h => exact (hs.disposeSlot h).congr rfl rfl rfl
  | reset => exact .of_empty rfl rfl
  | written | attached | detached | started | halted => exact hs

/-- Settles O23: the invariant along whatever agents write, and along every `Effect`. -/
theorem allocInvKept : Obligations.AllocInvKept := by
  intro s t hs h
  obtain hk | ⟨u, i, hk, hi⟩ := step_eq_next h
  · exact hs.of_kept hk
  · exact (hs.of_kept hk).effect (exec_effect hi)

end Sys2Proof.Machine
end

section
/-! Who writes what (R22 to R28, R30, R31): each part of the structure of the machine along every `Effect`, and what a step that
runs no operation keeps. -/

namespace Sys2Proof.Machine

/-! ## The removal and the placing of a card -/

/-- The removal of a card writes the table, the endpoints and the note of the call (R139, R141). -/
theorem disposeSlot_eq {k : Slot} {s t : State} (h : disposeSlot k s = .next t) :
    t = { s with peripheralTable := t.peripheralTable, endpoints := t.endpoints, periCalls := t.periCalls } := by
  obtain ⟨-, rfl⟩ | ⟨-, rfl⟩ := disposeSlot_next h <;> rfl

/-! ## User RAM (R23) -/

/-- User RAM reads as before where neither it nor the number of RESETs has changed. -/
theorem SameMemory.of_eq {s t : State} (hmem : t.userMemory = s.userMemory) (hcount : t.resetCount = s.resetCount) :
    SameMemory s t := State.userByte_congr hmem hcount

theorem Kept.sameMemory {s t : State} (h : Kept s t) : SameMemory s t := .of_eq h.userMemory h.resetCount

/-- An operation writes user RAM only as a WRITE, at its address, or as RESET (R23). -/
theorem Effect.userByte {i : Instr} {s t : State} (h : Effect i s t) (hreset : i ≠ .reset) {b : Nat}
    (hwrite : ∀ v, i ≠ .write b v) : t.userByte b = s.userByte b := by
  cases h with
  | kept h => exact h.sameMemory b
  | @written _ a v _ =>
    refine (State.userByte_writeUser s a b v).trans (if_neg fun hba => hwrite v ?_)
    rw [hba]
  | installed _ _ h | removed _ _ h =>
    refine State.userByte_congr ?_ ?_ b <;> rw [disposeSlot_eq h] <;> rfl
  | reset => exact absurd rfl hreset
  | allocated | released | attached | detached | started | halted => exact State.userByte_congr rfl rfl b

/-! ## Parameters, table, allocator, run state -/

/-- No operation writes a parameter (R22). -/
theorem Effect.params {i : Instr} {s t : State} (h : Effect i s t) : t.params = s.params := by
  cases h with
  | kept h => exact h.params
  | installed _ _ h | removed _ _ h => rw [disposeSlot_eq h]; rfl
  | written | allocated | released | attached | detached | started | halted | reset => rfl

/-- While the machine runs no operation swaps a card (R24). -/
theorem Effect.sameTable {i : Instr} {s t : State} (h : Effect i s t) (hrun : s.runState = .running) : SameTable s t := by
  cases h with
  | kept h => exact h.table
  | installed hhalt | removed hhalt => exact nomatch hrun.symm.trans hhalt
  | written | allocated | released | attached | detached | started | halted | reset => exact .of_table rfl

/-- The allocator is written by MALLOC, FREE and RESET (R27, R28). -/
theorem Effect.allocator {i : Instr} {s t : State} (h : Effect i s t) (hmalloc : ∀ n, i ≠ .malloc n)
    (hfree : ∀ n, i ≠ .free n) (hreset : i ≠ .reset) : t.allocBits = s.allocBits ∧ t.allocMap = s.allocMap := by
  cases h with
  | kept h => exact ⟨h.allocBits, h.allocMap⟩
  | allocated => exact absurd rfl (hmalloc _)
  | released => exact absurd rfl (hfree _)
  | reset => exact absurd rfl hreset
  | installed _ _ h | removed _ _ h => rw [disposeSlot_eq h]; exact ⟨rfl, rfl⟩
  | written | attached | detached | started | halted => exact ⟨rfl, rfl⟩

/-- The run state is written by START, HALT and RESET (R26). -/
theorem Effect.runState {i : Instr} {s t : State} (h : Effect i s t) (hstart : i ≠ .start) (hhalt : i ≠ .halt)
    (hreset : i ≠ .reset) : t.runState = s.runState := by
  cases h with
  | kept h => exact h.runState
  | started => exact absurd rfl hstart
  | halted => exact absurd rfl hhalt
  | reset => exact absurd rfl hreset
  | installed _ _ h | removed _ _ h => rw [disposeSlot_eq h]; rfl
  | written | allocated | released | attached | detached => rfl

/-- `romMapping` is written by RESET (R25). -/
theorem Effect.romMapping {i : Instr} {s t : State} (h : Effect i s t) (hreset : i ≠ .reset) :
    t.romMapping = s.romMapping := by
  cases h with
  | kept h => exact h.romMapping
  | reset => exact absurd rfl hreset
  | installed _ _ h | removed _ _ h => rw [disposeSlot_eq h]; rfl
  | written | allocated | released | attached | detached | started | halted => rfl

/-! ## The wiring of one endpoint (R30, R31) -/

/-- The wiring of one endpoint stands in the wiring of the machine. -/
theorem State.lookup_wiring (s : State) (e : EndpointId) : s.wiring.lookup e = (s.endpoint? e).map Endpoint.wiring := by
  unfold State.wiring State.endpoint?
  induction s.endpoints with
  | nil => rfl
  | cons p rest ih =>
    obtain ⟨f, x⟩ := p
    simp only [List.map_cons, List.lookup_cons, ih]
    split <;> rfl

/-- Where the wiring is as before, so is that of every endpoint. -/
theorem State.endpoint?_of_wiring {s t : State} (h : t.wiring = s.wiring) {e : EndpointId} {x : Endpoint}
    (hx : s.endpoint? e = some x) :
    ∃ y, t.endpoint? e = some y ∧ y.isMaster = x.isMaster ∧ y.isSlave = x.isSlave ∧ y.baud = x.baud ∧
      y.recipient = x.recipient := by
  have hw : (t.endpoint? e).map Endpoint.wiring = some x.wiring := by
    rw [← State.lookup_wiring, h, State.lookup_wiring, hx]
    rfl
  obtain ⟨y, hy, hyx⟩ := Option.map_eq_some_iff.mp hw
  simp only [Endpoint.wiring, Prod.mk.injEq] at hyx
  obtain ⟨hmaster, hslave, hbaud, -, -, hrec⟩ := hyx
  exact ⟨y, hy, hmaster, hslave, hbaud, hrec⟩

/-- A new cable leaves the role flags and the baud rate of every endpoint. -/
theorem State.endpoint?_recable {s : State} {e f : EndpointId} {x : Endpoint} (r : Option EndpointId)
    (hx : s.endpoint? e = some x) :
    ∃ y, (s.modifyEndpoint f (fun z => { z with recipient := r })).endpoint? e = some y ∧
      y.isMaster = x.isMaster ∧ y.isSlave = x.isSlave ∧ y.baud = x.baud := by
  rw [State.endpoint?_modifyEndpoint, hx]
  split
  · exact ⟨_, rfl, rfl, rfl, rfl⟩
  · exact ⟨x, rfl, rfl, rfl, rfl⟩

/-- RESET keeps the wiring (R144, R321). -/
theorem State.wiring_afterReset (s : State) : s.afterReset.wiring = s.wiring := by
  unfold State.wiring State.afterReset
  rw [List.map_map]
  rfl

/-- What an operation keeps of the wiring of an endpoint: the role flags and the baud rate (R30), and the cable unless it is
ATTACH or DETACH (R31). -/
def WiringKeptBy (i : Instr) (x y : Endpoint) : Prop :=
  y.isMaster = x.isMaster ∧ y.isSlave = x.isSlave ∧ y.baud = x.baud ∧
    ((∀ f g, i ≠ .attach f g) → (∀ f, i ≠ .detach f) → y.recipient = x.recipient)

/-- An operation that neither makes nor destroys endpoints finds each with its wiring, but for what it writes itself. -/
theorem Effect.endpoint {i : Instr} {s t : State} (h : Effect i s t) {e : EndpointId} {x : Endpoint}
    (hinstall : ∀ k c m r n, i ≠ .install k c m r n) (hremove : ∀ k, i ≠ .remove k) (hx : s.endpoint? e = some x) :
    ∃ y, t.endpoint? e = some y ∧ WiringKeptBy i x y := by
  have of_wiring (hw : t.wiring = s.wiring) : ∃ y, t.endpoint? e = some y ∧ WiringKeptBy i x y := by
    obtain ⟨y, hy, hmaster, hslave, hbaud, hrec⟩ := State.endpoint?_of_wiring hw hx
    exact ⟨y, hy, hmaster, hslave, hbaud, fun _ _ => hrec⟩
  cases h with
  | kept h => exact of_wiring h.wiring
  | reset => exact of_wiring s.wiring_afterReset
  | @attached _ f g _ =>
    obtain ⟨y, hy, hmaster, hslave, hbaud⟩ := State.endpoint?_recable (f := f) (some g) hx
    obtain ⟨z, hz, hmaster', hslave', hbaud'⟩ := State.endpoint?_recable (f := g) (some f) hy
    exact ⟨z, hz, hmaster'.trans hmaster, hslave'.trans hslave, hbaud'.trans hbaud, fun ha => absurd rfl (ha f g)⟩
  | @detached _ f =>
    obtain ⟨y, hy, hmaster, hslave, hbaud⟩ := State.endpoint?_recable (f := f) none hx
    exact ⟨y, hy, hmaster, hslave, hbaud, fun _ hd => absurd rfl (hd f)⟩
  | installed => exact absurd rfl (hinstall _ _ _ _ _)
  | removed => exact absurd rfl (hremove _)
  | written | allocated | released | started | halted => exact of_wiring rfl

/-! ## A step that runs no operation (log 1, log 20, R109) -/

theorem commandTransfer_table {run : RunCommand} {e : EndpointId} {payload : Bytes} {s t : State}
    (h : commandTransfer run e payload s = .next t) : t.peripheralTable = s.peripheralTable := by
  obtain ⟨-, h⟩ := requireRunning_eq_next.mp h
  obtain ⟨u, hu, rfl⟩ := ackAfter_eq_next.mp h
  exact (writeoutWith_frame hu).1.peripheralTable

theorem rejectRequest_table {r : Request} {why : DecodeError} {s t : State} (h : rejectRequest r why s = .next t) :
    t.peripheralTable = s.peripheralTable := by
  unfold rejectRequest at h
  split at h
  · exact commandTransfer_table h
  · obtain rfl := Host.Outcome.next.inj h
    rfl
  · exact nomatch h

theorem loadTx_table {e : EndpointId} {bytes : Bytes} {s t : State} (h : loadTx e bytes s = .next t) :
    t.peripheralTable = s.peripheralTable := by
  obtain ⟨x, -, h⟩ := withEndpoint_eq_next.mp h
  split at h
  · obtain rfl := Host.Outcome.next.inj h
    rfl
  · exact nomatch h
  · exact nomatch h

/-- An idle step is a point for background agents and nothing else (log 1, log 9). -/
theorem step_idle {s : State} (h : s.pending = []) : step s = .next s.interleave := by
  unfold step advance
  rw [h]

/-- A step that runs no operation keeps the structure of the machine, and every card's own state too. -/
theorem step_of_runsNoOperation {s t : State} (hs : RunsNoOperation s) (h : step s = .next t) :
    Kept s t ∧ t.peripheralTable = s.peripheralTable := by
  have start (rest : List Input) : Kept s { s.interleave with pending := rest, periCalls := [] } :=
    (Kept.interleave s).trans { Kept.refl s.interleave with }
  obtain hp | ⟨e, bytes, rest, hp⟩ | ⟨r, rest, why, hp, hwhy⟩ := hs
  · rw [step_idle hp] at h
    obtain rfl := Host.Outcome.next.inj h
    exact ⟨Kept.interleave s, s.interleave_peripheralTable⟩
  · unfold step advance at h
    rw [hp] at h
    exact ⟨(start rest).trans (loadTx_kept h), (loadTx_table h).trans s.interleave_peripheralTable⟩
  · unfold step advance at h
    simp only [hp, acceptInput, present, hwhy] at h
    exact ⟨(start rest).trans (rejectRequest_kept h), (rejectRequest_table h).trans s.interleave_peripheralTable⟩

/-- An endpoint without an agent, or with a device that runs none, is untouched at a point for agents (R43, R80, R202). -/
theorem State.interleave_endpoint?_eq {s : State} {e : EndpointId} {x : Endpoint} (hx : s.endpoint? e = some x)
    (h : x.bgAgent = false ∨ ∀ id token, x.device ≠ .vendor id token) : s.interleave.endpoint? e = some x := by
  have hruns : x.runsAgent = false := by
    obtain hb | hd := h
    · exact Endpoint.runsAgent_of_bgAgent hb
    · refine Endpoint.runsAgent_of_device ?_
      cases hdev : x.device with
      | vendor id token => exact absurd hdev (hd id token)
      | reference | command => rfl
  obtain ⟨y, hy, -, hquiet, -⟩ := State.interleave_endpoint? hx
  rw [hy, hquiet hruns]

/-! ## The statements -/

/-- Settles O56: agents and operations keep the declared table of a running machine. -/
theorem tableFixedWhileRunning : Obligations.TableFixedWhileRunning := by
  intro s t hrun h
  obtain hk | ⟨u, i, hk, hi⟩ := step_eq_next h
  · exact hk.table
  · exact hk.table.trans ((exec_effect hi).sameTable (hk.runState.trans hrun))

/-- Settles O57. -/
theorem parametersConstant : Obligations.ParametersConstant := by
  intro s t h
  obtain hk | ⟨u, i, hk, hi⟩ := step_eq_next h
  · exact hk.params
  · exact (exec_effect hi).params.trans hk.params

/-- Settles O58: of the effects of operations only that of WRITE and that of RESET reach user RAM. -/
theorem userRamWriters : Obligations.UserRamWriters := by
  refine ⟨fun i s t h => ⟨fun hwrite hreset b => ?_, ?_⟩, fun s t hs h => ?_⟩
  · exact (exec_effect h).userByte hreset (hwrite b)
  · rintro a v rfl b hb
    exact (exec_effect h).userByte nofun fun w hw => hb (Instr.write.inj hw).1.symm
  · exact (step_of_runsNoOperation hs h).1.sameMemory

/-- Settles O59: each part by its lemma along the effect of an operation. -/
theorem onlyWriters : Obligations.OnlyWriters := by
  refine ⟨fun i s t h => ?_, fun s t hs h => ?_⟩
  · have he := exec_effect h
    exact ⟨he.allocator, he.runState, he.romMapping, fun e x hinstall hremove => he.endpoint hinstall hremove⟩
  · obtain ⟨hk, htable⟩ := step_of_runsNoOperation hs h
    refine ⟨hk.allocBits, hk.allocMap, hk.runState, hk.romMapping, htable,
      fun e x hx => State.endpoint?_of_wiring hk.wiring hx, fun hp e x hx hquiet => ?_⟩
    rw [step_idle hp] at h
    obtain rfl := Host.Outcome.next.inj h
    exact State.interleave_endpoint?_eq hx hquiet

end Sys2Proof.Machine
end

section
/-! The counters of a command session (R41, R42) under each command and under the data that follows a WRITE (R235 to R255). -/

namespace Sys2Proof.Machine

/-! ## The changes a command makes of a session -/

theorem Session.inv_reset : Session.reset.Inv := ⟨rfl, Nat.le_refl _, nofun, fun _ => rfl, nofun, Nat.le_refl _⟩

section
variable {x : Session} (h : x.Inv)
include h

/-- Staging begins at the first byte (R230). -/
theorem Session.Inv.staged (bytes : Bytes) : { x with sendBuffer := bytes, sendPos := 0 : Session }.Inv := by
  obtain ⟨husage, htarget, hacc, hidle, hopen, -⟩ := h
  exact ⟨husage, htarget, hacc, hidle, hopen, Nat.zero_le _⟩

/-- An OPEN sets the path (R239 to R241). -/
theorem Session.Inv.withPath (p : Path) (drive : Option Nat) :
    { x with curPath := some p, drive := drive : Session }.Inv := by
  obtain ⟨husage, htarget, hacc, hidle, -, hpos⟩ := h
  exact ⟨husage, htarget, hacc, hidle, fun _ => nofun, hpos⟩

/-- A handle opens on a path that is set. -/
theorem Session.Inv.opened (mode : OpenMode) (hp : x.curPath ≠ none) :
    { x with fileOpen := true, openMode := mode : Session }.Inv := by
  obtain ⟨husage, htarget, hacc, hidle, -, hpos⟩ := h
  exact ⟨husage, htarget, hacc, hidle, fun _ => hp, hpos⟩

theorem Session.Inv.closed : { x with fileOpen := false : Session }.Inv := by
  obtain ⟨husage, htarget, hacc, hidle, -, hpos⟩ := h
  exact ⟨husage, htarget, hacc, hidle, nofun, hpos⟩

/-- `WRITE<N>` of some bytes begins with an empty buffer (R243). -/
theorem Session.Inv.announced {n : Nat} (hn : n ≠ 0) :
    { x with writeBuffer := [], writeBufferUsage := 0, writeTarget := n, accumulating := true : Session }.Inv := by
  obtain ⟨-, -, -, -, hopen, hpos⟩ := h
  exact ⟨rfl, Nat.zero_le _, fun _ => Nat.pos_of_ne_zero hn, nofun, hopen, hpos⟩

/-- What is accepted is at most what is still to come (R244). -/
theorem Session.Inv.accepted (hacc : x.accumulating = true) {payload : Bytes} {n : Nat} (hn : n ≤ payload.length)
    (hlt : x.writeBufferUsage + n < x.writeTarget) :
    { x with writeBuffer := x.writeBuffer ++ payload.take n, writeBufferUsage := x.writeBufferUsage + n : Session }.Inv := by
  obtain ⟨husage, -, -, -, hopen, hpos⟩ := h
  refine ⟨?_, Nat.le_of_lt hlt, fun _ => hlt, fun hidle => ?_, hopen, hpos⟩
  · simp only [List.length_append, List.length_take_of_le hn, husage]
  · exact nomatch hacc.symm.trans hidle

/-- A chunk sent moves `sendPos` to the end of the staged bytes at most (R254). -/
theorem Session.Inv.sent (n : Nat) :
    { x with sendPos := x.sendPos + min n (x.sendBuffer.length - x.sendPos) : Session }.Inv := by
  obtain ⟨husage, htarget, hacc, hidle, hopen, hpos⟩ := h
  refine ⟨husage, htarget, hacc, hidle, hopen, ?_⟩
  show x.sendPos + min n (x.sendBuffer.length - x.sendPos) ≤ x.sendBuffer.length
  omega

end

/-- A session with its buffer emptied and nothing to come, whatever the buffer held (R245). -/
theorem Session.inv_committed {x : Session} (hopen : x.fileOpen = true → x.curPath ≠ none)
    (hpos : x.sendPos ≤ x.sendBuffer.length) :
    { x with accumulating := false, writeBuffer := [], writeBufferUsage := 0 : Session }.Inv :=
  ⟨rfl, Nat.zero_le _, nofun, fun _ => rfl, hopen, hpos⟩

/-- A commit leaves the counters right, whatever the buffer held (R245). -/
theorem commit_inv {d : CommandDevice} (hopen : d.session.fileOpen = true → d.session.curPath ≠ none)
    (hpos : d.session.sendPos ≤ d.session.sendBuffer.length) : (commit d).1.session.Inv :=
  Session.inv_committed hopen hpos

/-! ## The commands -/

section
variable {d : CommandDevice} (h : d.session.Inv)
include h

theorem devstu_inv (status : Int) : (devstu status d).1.session.Inv := h.staged _
theorem devtyp_inv : (devtyp d).1.session.Inv := h.staged _
theorem devnam_inv : (devnam d).1.session.Inv := h.staged _
theorem closeFile_inv : (closeFile d).1.session.Inv := h.closed

/-- The checks of every OPEN, before what is its own. -/
theorem openWith_inv {arg : Bytes} {k : Path → CommandDevice → DeviceResult}
    (hk : ∀ p d, d.session.Inv → d.session.curPath ≠ none → (k p d).1.session.Inv) :
    (openWith arg d k).1.session.Inv := by
  unfold openWith
  split
  · exact h
  · split
    · exact h
    · exact hk _ _ (h.withPath _ _) nofun

theorem needWritable_inv {r : DeviceResult} (hr : r.1.session.Inv) : (d.needWritable r).1.session.Inv := by
  unfold CommandDevice.needWritable
  split
  · exact h
  · exact hr

theorem needPath_inv {k : Path → DeviceResult} (hk : ∀ p, (k p).1.session.Inv) : (d.needPath k).1.session.Inv := by
  unfold CommandDevice.needPath
  split
  · exact h
  · exact hk _

theorem openr_inv (arg : Bytes) : (openr arg d).1.session.Inv := by
  refine openWith_inv h fun p d hd hp => ?_
  simp only
  split
  case h_4 | h_5 => exact hd.opened .r hp
  all_goals exact hd

theorem openw_inv (arg : Bytes) : (openw arg d).1.session.Inv :=
  openWith_inv h fun _ _ hd hp => needWritable_inv hd (hd.opened .w hp)

theorem opena_inv (arg : Bytes) : (opena arg d).1.session.Inv :=
  openWith_inv h fun _ _ hd hp => needWritable_inv hd (hd.opened .a hp)

theorem readFile_inv : (readFile d).1.session.Inv := by
  unfold readFile
  split
  · exact h
  · split
    · exact h
    · simp only
      split
      case h_5 =>
        split
        · exact h
        · exact h
        · exact h.staged _
      all_goals exact h

theorem writeFile_inv (arg : Bytes) : (writeFile arg d).1.session.Inv := by
  unfold writeFile
  split
  · exact h
  · split
    · exact h
    · split
      · exact h
      · have ⟨_, _, _, _, hopen, hpos⟩ := h
        simp only
        split
        · exact commit_inv hopen hpos
        · rename_i hn
          exact h.announced hn

theorem acceptData_inv (hacc : d.session.accumulating = true) (payload : Bytes) :
    (acceptData payload d).1.session.Inv := by
  have ⟨_, htarget, _, _, hopen, hpos⟩ := h
  unfold acceptData
  simp only
  split
  · exact commit_inv hopen hpos
  · rename_i hne
    exact h.accepted hacc (Nat.min_le_left _ _) (by omega)

theorem changeExisting_inv (p : Path) (change : Store → ChangeResult × Store) :
    (changeExisting p d change).1.session.Inv := by
  unfold changeExisting
  simp only
  split <;> exact h

theorem deletePath_inv : (deletePath d).1.session.Inv :=
  needPath_inv h fun p => needWritable_inv h (changeExisting_inv h p _)
theorem touchPath_inv : (touchPath d).1.session.Inv :=
  needPath_inv h fun p => needWritable_inv h (changeExisting_inv h p _)
theorem mkdirPath_inv : (mkdirPath d).1.session.Inv := needPath_inv h fun _ => needWritable_inv h h
theorem mkfilePath_inv : (mkfilePath d).1.session.Inv := needPath_inv h fun _ => needWritable_inv h h

theorem listFiles_inv : (listFiles d).1.session.Inv := by
  refine needPath_inv h fun p => ?_
  simp only
  split
  case h_5 =>
    split
    · exact h.staged _
    · exact h
    · exact h
  all_goals exact h

theorem getLen_inv : (getLen d).1.session.Inv := by
  refine needPath_inv h fun p => ?_
  simp only
  split
  case h_5 => exact h.staged _
  all_goals exact h

theorem runKeyword_inv (arg : Bytes) (status : Int) (k : Keyword) : (runKeyword arg status d k).1.session.Inv := by
  cases k with
  | devrst => exact Session.inv_reset
  | devstu => exact devstu_inv h status
  | devtyp => exact devtyp_inv h
  | devnam => exact devnam_inv h
  | openr => exact openr_inv h arg
  | openw => exact openw_inv h arg
  | opena => exact opena_inv h arg
  | read => exact readFile_inv h
  | write => exact writeFile_inv h arg
  | close => exact closeFile_inv h
  | delete => exact deletePath_inv h
  | mkdir => exact mkdirPath_inv h
  | mkfile => exact mkfilePath_inv h
  | touch => exact touchPath_inv h
  | listfiles => exact listFiles_inv h
  | getlen => exact getLen_inv h

theorem executeText_inv (text : Bytes) (status : Int) : (executeText text status d).1.session.Inv := by
  unfold executeText
  split
  · exact runKeyword_inv h ..
  · exact h

theorem produceCommand_inv : (produceCommand d).2.session.Inv := h.sent _

end

/-! ## The hooks -/

/-- What a command device does with a text keeps the counters of its session. -/
def KeepsSession (run : RunCommand) : Prop :=
  ∀ text status d, d.session.Inv → (run text status d).1.session.Inv

theorem keepsSession_executeText : KeepsSession executeText := fun text status _ h => executeText_inv h text status

/-- The receive hook keeps the counters of a session (R232). -/
theorem Endpoint.consumeBy_inv {run : RunCommand} (hrun : KeepsSession run) {x : Endpoint} (hx : x.device.Inv)
    {payload : Bytes} {r : Device × Option Int} (h : x.consumeBy run payload = some r) : r.1.Inv := by
  unfold Endpoint.consumeBy at h
  cases hd : x.device with
  | reference tx rx =>
    simp only [hd, Option.some.injEq] at h
    exact h ▸ trivial
  | command d =>
    simp only [hd, Option.some.injEq] at h
    have hd' : d.session.Inv := by
      rw [hd] at hx
      exact hx
    subst h
    cases ha : d.session.accumulating with
    | true =>
      simp only [consumeWith_data ha]
      exact acceptData_inv hd' ha payload
    | false =>
      simp only [consumeWith_text ha]
      exact hrun _ _ _ hd'
  | vendor id token =>
    simp only [hd, Option.map_eq_some_iff] at h
    obtain ⟨a, -, rfl⟩ := h
    exact trivial

/-- The send hook picks at most a block and keeps the counters of a session (R181, R254). -/
theorem produceOf_eq_next {e : EndpointId} {x : Endpoint} {data : Bytes} {d : Device}
    (h : produceOf e x = .next (data, d)) : data.length ≤ Config.block ∧ (x.device.Inv → d.Inv) := by
  unfold produceOf at h
  cases hd : x.device with
  | reference tx rx =>
    simp only [hd, Host.Outcome.next.injEq, Prod.mk.injEq] at h
    obtain ⟨rfl, rfl⟩ := h
    exact ⟨by simp only [List.length_take]; omega, fun _ => trivial⟩
  | command c =>
    simp only [hd, Host.Outcome.next.injEq, Prod.mk.injEq] at h
    obtain ⟨rfl, rfl⟩ := h
    refine ⟨?_, fun hc => produceCommand_inv hc⟩
    rw [produceCommand_fst, List.length_take]
    omega
  | vendor id token =>
    simp only [hd] at h
    split at h
    · exact nomatch h
    · split at h
      · rename_i hlen
        obtain ⟨rfl, rfl⟩ := Prod.mk.inj (Host.Outcome.next.inj h)
        exact ⟨hlen, fun _ => trivial⟩
      · exact nomatch h

/-- A device at reset (R321). -/
theorem Device.inv_reset (d : Device) : d.reset.Inv := by
  cases d with
  | command d => exact Session.inv_reset
  | reference | vendor => exact trivial

end Sys2Proof.Machine
end

section
/-! What a step makes of the endpoints: a sequence of a few kinds of changes, `EndpointsMoved`. An invariant of the endpoints
then has one case for each constructor. -/

namespace Sys2Proof.Machine

/-- What an operation, an input and background agents make of the endpoints. -/
inductive EndpointsMoved : State → State → Prop
  | same {s t : State} (h : t.endpoints = s.endpoints) : EndpointsMoved s t
  | trans {s t u : State} (h1 : EndpointsMoved s t) (h2 : EndpointsMoved t u) : EndpointsMoved s u
  /-- Background agents write (R80). -/
  | agents {s : State} : EndpointsMoved s s.interleave
  /-- A WRITEOUT, as an operation or with a command (R187, R230). -/
  | delivered {run : RunCommand} {f : EndpointId} {data : Bytes} {s t : State} (hrun : KeepsSession run)
    (h : writeoutWith run f data s = .next t) : EndpointsMoved s t
  /-- A START_SEND (R185). -/
  | sent {e : EndpointId} {s t : State} (h : startSend e s = .next t) : EndpointsMoved s t
  /-- The direction bit of the bus-status byte (R199). -/
  | turned {s : State} (e : EndpointId) (b : Bool) : EndpointsMoved s (s.putSendmode e b)
  /-- A byte of the block-size pair (R201). -/
  | resized {s : State} (e : EndpointId) {v : BlockSize} (h : v.len ≤ Config.block) :
    EndpointsMoved s (s.putBlockSize e v)
  /-- A test loads a queue (R202). -/
  | loaded {s : State} (e : EndpointId) (tx rx : Bytes) : EndpointsMoved s (s.putDevice e (.reference tx rx))
  /-- ATTACH and DETACH (R182, R183). -/
  | recabled {s : State} (e : EndpointId) (r : Option EndpointId) :
    EndpointsMoved s (s.modifyEndpoint e (fun x => { x with recipient := r }))
  /-- The endpoints of a card cease to exist (R141). -/
  | destroyed {s t : State} (keep : EndpointId × Endpoint → Bool) (h : t.endpoints = s.endpoints.filter keep) :
    EndpointsMoved s t
  /-- The endpoints of a card are created (R140). -/
  | created {s : State} (k : Slot) (card : Peripheral) : EndpointsMoved s (createEndpoints k card s)
  /-- RESET (R144). -/
  | reset {s : State} : EndpointsMoved s s.afterReset

theorem EndpointsMoved.refl (s : State) : EndpointsMoved s s := .same rfl

theorem EndpointsMoved.respond {s t : State} (h : EndpointsMoved s t) (r : Response) : EndpointsMoved s (t.respond r) :=
  h.trans (.same rfl)

/-! ## Transfers and the receive loop (R186, R189) -/

theorem startRead_endpoints {e : EndpointId} {s t : State} (h : startRead e s = .next t) : EndpointsMoved s t := by
  obtain ⟨x, -, ⟨-, rfl⟩ | ⟨f, -, h⟩⟩ := startRead_eq_next.mp h
  · exact .refl _
  · exact .sent h

theorem recvRound_endpoints {e peer : EndpointId} {s t : State} {payload : Bytes} {more : Bool}
    (h : recvRound e peer s = .next (t, payload, more)) : EndpointsMoved s t := by
  obtain ⟨u, y, hu, rfl, -⟩ := recvRound_eq_next.mp h
  have h0 : EndpointsMoved s { s with wire := none } := .same rfl
  exact (h0.trans (startRead_endpoints hu)).trans .agents

theorem recvMessage_endpoints {e peer : EndpointId} {x : Endpoint} {s t : State} (hx : s.endpoint? e = some x)
    (hp : x.recipient = some peer) (h : recvMessage e peer s = .next t) : EndpointsMoved s t := by
  rw [recvMessage_eq hx hp] at h
  cases hl : recvLoop e peer [] s with
  | none => simp [hl] at h
  | some r =>
    obtain rfl : r = .next t := by simpa [hl] using h
    obtain ⟨u, b, hu, rfl⟩ := recvLoop_invariant (P := EndpointsMoved s)
      (fun _ _ _ _ hs hr => hs.trans (recvRound_endpoints hr)) (.refl s) hl
    exact hu.respond _

/-! ## The registers of a serial port (R198 to R201) -/

theorem pairView_endpoints {e : EndpointId} {s t : State} {v : BlockSize} (h : pairView e s = .next (t, v)) :
    EndpointsMoved s t := by
  obtain ⟨x, -, h⟩ := withEndpoint_eq_next.mp h
  split at h
  · obtain ⟨rfl, -⟩ := Prod.mk.inj (Host.Outcome.next.inj h)
    exact .refl _
  · obtain ⟨y, -, h⟩ := withEndpoint_eq_next.mp h
    obtain ⟨rfl, -⟩ := Prod.mk.inj (Host.Outcome.next.inj h)
    exact .agents

theorem readPort_endpoints {r : PortRegister} {s t : State} {b : Byte} (h : readPort r s = .next (t, b)) :
    EndpointsMoved s t := by
  cases r with
  | status e =>
    obtain ⟨x, -, h⟩ := withEndpoint_eq_next.mp h
    obtain ⟨rfl, -⟩ := Prod.mk.inj (Host.Outcome.next.inj h)
    exact .trans .agents .agents
  | pairLow e | pairHigh e =>
    obtain ⟨⟨u, v⟩, hv, h⟩ := andThen_eq_next.mp h
    obtain ⟨rfl, -⟩ := Prod.mk.inj (Host.Outcome.next.inj h)
    exact pairView_endpoints hv

theorem writeStatus_endpoints {e : EndpointId} {v : Byte} {s t : State} (h : writeStatus e v s = .next t) :
    EndpointsMoved s t := by
  obtain ⟨x, -, h⟩ := withEndpoint_eq_next.mp h
  have h0 : EndpointsMoved s (s.putSendmode e (directionBit v)) := .turned e _
  simp only at h
  split at h
  · split at h
    · exact h0.trans (.sent h)
    · exact h0.trans (startRead_endpoints h)
  · obtain rfl := Host.Outcome.next.inj h
    exact h0

/-- A decoded count is at most 4096 (R101). -/
theorem decodePair_len (low high : Byte) : (decodePair low high).len ≤ Config.block := by
  have hlow := low.isLt
  simp only [decodePair, Config.block]
  split
  · omega
  · split <;> omega

theorem rewriteBlockSize_endpoints {e : EndpointId} {g : BlockSize → BlockSize} (hg : ∀ v, (g v).len ≤ Config.block)
    {s t : State} (h : rewriteBlockSize e g s = .next t) : EndpointsMoved s t := by
  obtain ⟨x, -, h⟩ := withEndpoint_eq_next.mp h
  obtain rfl := Host.Outcome.next.inj h
  exact .trans .agents (.resized e (hg _))

theorem writePort_endpoints {r : PortRegister} {v : Byte} {s t : State} (h : writePort r v s = .next t) :
    EndpointsMoved s t := by
  cases r with
  | status e => exact writeStatus_endpoints h
  | pairLow e => exact rewriteBlockSize_endpoints (g := fun b => writePairLow b v) (fun _ => decodePair_len ..) h
  | pairHigh e => exact rewriteBlockSize_endpoints (g := fun b => writePairHigh b v) (fun _ => decodePair_len ..) h

/-! ## READ and WRITE (R130, R131) -/

/-- A call on a card, as the lemmas about the calls give it, changes no endpoint. -/
theorem EndpointsMoved.cardCall {s u : State} {k : Slot} {ent : Entry} {call : PeriCall}
    (h : u = s.note call ∨ ∃ c : Card, c.kind = ent.card.kind ∧ u = (s.note call).setCard k ent c) :
    EndpointsMoved s u := by
  obtain rfl | ⟨c, -, rfl⟩ := h <;> exact .same rfl

theorem readMmio_endpoints {addr : Int} {j : Slot} {w : Nat} {s t : State} (h : readMmio addr j w s = .next t) :
    EndpointsMoved s t := by
  unfold readMmio at h
  split at h
  · obtain rfl := Host.Outcome.next.inj h
    exact .same rfl
  · split at h
    · obtain rfl := Host.Outcome.next.inj h
      exact .same rfl
    · obtain ⟨u, v, hu, rfl⟩ := dataAfter_eq_next.mp h
      obtain ⟨u', hu', rfl | ⟨r, b, hr, -⟩⟩ := cardMmioRead_next hu
      · exact (EndpointsMoved.cardCall hu').respond _
      · exact ((EndpointsMoved.cardCall hu').trans (readPort_endpoints hr)).respond _

theorem writeMmio_endpoints {addr : Int} {byte : Byte} {j : Slot} {w : Nat} {s t : State}
    (h : writeMmio addr byte j w s = .next t) : EndpointsMoved s t := by
  unfold writeMmio at h
  split at h
  · obtain rfl := Host.Outcome.next.inj h
    exact .same rfl
  · split at h
    · obtain rfl := Host.Outcome.next.inj h
      exact .same rfl
    · obtain ⟨u, hu, rfl⟩ := ackAfter_eq_next.mp h
      obtain ⟨u', hu', rfl | ⟨r, hr⟩⟩ := cardMmioWrite_next hu
      · exact (EndpointsMoved.cardCall hu').respond _
      · exact ((EndpointsMoved.cardCall hu').trans (writePort_endpoints hr)).respond _

theorem readRam_endpoints {addr : Int} {k : Slot} {off : Nat} {s t : State} (h : readRam addr k off s = .next t) :
    EndpointsMoved s t := by
  unfold readRam at h
  split at h
  · obtain rfl := Host.Outcome.next.inj h
    exact .same rfl
  · split at h
    · obtain rfl := Host.Outcome.next.inj h
      exact .same rfl
    · obtain ⟨u, v, hu, rfl⟩ := dataAfter_eq_next.mp h
      exact (EndpointsMoved.cardCall (cardPeek_next hu)).respond _

theorem writeRam_endpoints {addr : Int} {byte : Byte} {k : Slot} {off : Nat} {s t : State}
    (h : writeRam addr byte k off s = .next t) : EndpointsMoved s t := by
  unfold writeRam at h
  split at h
  · obtain rfl := Host.Outcome.next.inj h
    exact .same rfl
  · split at h
    · obtain rfl := Host.Outcome.next.inj h
      exact .same rfl
    · obtain ⟨u, hu, rfl⟩ := ackAfter_eq_next.mp h
      exact (EndpointsMoved.cardCall (cardPoke_next hu)).respond _

theorem execRead_endpoints {addr : Int} {s t : State} (h : execRead addr s = .next t) : EndpointsMoved s t := by
  obtain ⟨-, h⟩ := requireRunning_eq_next.mp h
  split at h
  · obtain rfl := Host.Outcome.next.inj h
    exact .same rfl
  · exact readMmio_endpoints h
  · exact readRam_endpoints h
  · obtain rfl := Host.Outcome.next.inj h
    exact .same rfl

theorem execWrite_endpoints {addr : Int} {byte : Byte} {s t : State} (h : execWrite addr byte s = .next t) :
    EndpointsMoved s t := by
  obtain ⟨-, h⟩ := requireRunning_eq_next.mp h
  split at h
  · obtain rfl := Host.Outcome.next.inj h
    exact .same rfl
  · exact writeMmio_endpoints h
  · exact writeRam_endpoints h
  · obtain rfl := Host.Outcome.next.inj h
    exact .same rfl

/-! ## The other operations -/

theorem execMalloc_endpoints {size : Int} {s t : State} (h : execMalloc size s = .next t) : t.endpoints = s.endpoints := by
  obtain ⟨-, h⟩ := requireRunning_eq_next.mp h
  split at h
  · obtain rfl := Host.Outcome.next.inj h
    rfl
  · split at h <;> obtain rfl := Host.Outcome.next.inj h <;> rfl

theorem execFree_endpoints {offset : Int} {s t : State} (h : execFree offset s = .next t) :
    t.endpoints = s.endpoints := by
  obtain ⟨-, h⟩ := requireRunning_eq_next.mp h
  split at h
  · obtain rfl := Host.Outcome.next.inj h
    rfl
  · simp only at h
    split at h <;> obtain rfl := Host.Outcome.next.inj h <;> rfl

theorem ackAfter_endpoints {r : Res State} {s t : State} (hr : ∀ u, r = .next u → EndpointsMoved s u)
    (h : requireRunning s (ackAfter r) = .next t) : EndpointsMoved s t := by
  obtain ⟨-, h⟩ := requireRunning_eq_next.mp h
  obtain ⟨u, hu, rfl⟩ := ackAfter_eq_next.mp h
  exact (hr u hu).respond _

theorem commandTransfer_endpoints {run : RunCommand} (hrun : KeepsSession run) {e : EndpointId} {payload : Bytes}
    {s t : State} (h : commandTransfer run e payload s = .next t) : EndpointsMoved s t :=
  ackAfter_endpoints (fun _ => .delivered hrun) h

theorem answerTarget_endpoints {target : Target} {s t : State} (h : answerTarget target s = .next t) :
    EndpointsMoved s t := by
  obtain rfl := Host.Outcome.next.inj h
  exact .same rfl

theorem execCable_endpoints {e : EndpointId} {s t : State} (h : execCable e s = .next t) : EndpointsMoved s t := by
  obtain ⟨-, h⟩ := requireRunning_eq_next.mp h
  obtain ⟨x, -, h⟩ := withEndpoint_eq_next.mp h
  obtain rfl := Host.Outcome.next.inj h
  exact .same rfl

theorem execHasNext_endpoints {e : EndpointId} {s t : State} (h : execHasNext e s = .next t) : EndpointsMoved s t := by
  obtain ⟨-, h⟩ := requireRunning_eq_next.mp h
  obtain ⟨b, -, h⟩ := andThen_eq_next.mp h
  obtain rfl := Host.Outcome.next.inj h
  exact .same rfl

theorem execRecvMessage_endpoints {e : EndpointId} {s t : State} (h : execRecvMessage e s = .next t) :
    EndpointsMoved s t := by
  obtain ⟨-, h⟩ := requireRunning_eq_next.mp h
  obtain ⟨x, hx, h⟩ := withEndpoint_eq_next.mp h
  split at h
  · obtain rfl := Host.Outcome.next.inj h
    exact .same rfl
  · rename_i f hf
    exact recvMessage_endpoints hx hf h

theorem disposeSlot_endpoints {k : Slot} {s t : State} (h : disposeSlot k s = .next t) : EndpointsMoved s t := by
  obtain ⟨-, rfl⟩ | ⟨-, rfl⟩ := disposeSlot_next h
  · exact .refl _
  · exact .destroyed _ rfl

/-- What every operation that answers makes of the endpoints. -/
theorem exec_endpoints {i : Instr} {s t : State} (h : exec i s = .next t) : EndpointsMoved s t := by
  cases i with
  | read addr => exact execRead_endpoints h
  | write addr byte => exact execWrite_endpoints h
  | malloc size => exact .same (execMalloc_endpoints h)
  | free offset => exact .same (execFree_endpoints h)
  | attach e f =>
    obtain ⟨-, -, rfl⟩ := execAttach_eq_next.mp h
    exact ((EndpointsMoved.recabled e _).trans (.recabled f _)).respond _
  | detach e =>
    obtain ⟨-, rfl⟩ := execDetach_eq_next.mp h
    exact (EndpointsMoved.recabled e none).respond _
  | cable e => exact execCable_endpoints h
  | startSend e => exact ackAfter_endpoints (fun _ => .sent) h
  | startRead e => exact ackAfter_endpoints (fun _ => startRead_endpoints) h
  | writeout e data => exact ackAfter_endpoints (fun _ => .delivered keepsSession_executeText) h
  | hasNext e => exact execHasNext_endpoints h
  | recvMessage e => exact execRecvMessage_endpoints h
  | install k card ram mmio irqs =>
    obtain ⟨-, -, u, hu, rfl⟩ := execInstall_eq_next.mp h
    have hc : EndpointsMoved u (createEndpoints (Fin.ofNat 8 k) card u) := .created _ _
    exact (disposeSlot_endpoints hu).trans (hc.trans (.same rfl))
  | remove k =>
    obtain ⟨-, -, u, hu, rfl⟩ := execRemove_eq_next.mp h
    exact (disposeSlot_endpoints hu).respond _
  | start | halt =>
    obtain rfl := Host.Outcome.next.inj h
    exact .same rfl
  | reset =>
    obtain rfl := Host.Outcome.next.inj h
    exact EndpointsMoved.reset.respond _
  | addrUser _ | addrMmio0 _ | addrMmio1 _ | addrMmio2 _ | addrMmio3 _ | addrMmio4 _ | addrMmio5 _ | addrMmio6 _
  | addrMmio7 _ | addrRam1 _ | addrRam2 _ | addrRam3 _ | addrRam4 _ | addrRam5 _ | addrRam6 _ | addrRam7 _ =>
    exact answerTarget_endpoints h
  | cmdDevrst e tail => exact commandTransfer_endpoints (fun _ _ _ _ => Session.inv_reset) h
  | cmdDevstu e tail => exact commandTransfer_endpoints (fun _ status _ hd => devstu_inv hd status) h
  | cmdDevtyp e tail => exact commandTransfer_endpoints (fun _ _ _ hd => devtyp_inv hd) h
  | cmdDevnam e tail => exact commandTransfer_endpoints (fun _ _ _ hd => devnam_inv hd) h
  | cmdOpenr e arg tail => exact commandTransfer_endpoints (fun _ _ _ hd => openr_inv hd _) h
  | cmdOpenw e arg tail => exact commandTransfer_endpoints (fun _ _ _ hd => openw_inv hd _) h
  | cmdOpena e arg tail => exact commandTransfer_endpoints (fun _ _ _ hd => opena_inv hd _) h
  | cmdRead e tail => exact commandTransfer_endpoints (fun _ _ _ hd => readFile_inv hd) h
  | cmdWrite e arg tail => exact commandTransfer_endpoints (fun _ _ _ hd => writeFile_inv hd _) h
  | cmdClose e tail => exact commandTransfer_endpoints (fun _ _ _ hd => closeFile_inv hd) h
  | cmdDelete e tail => exact commandTransfer_endpoints (fun _ _ _ hd => deletePath_inv hd) h
  | cmdMkdir e tail => exact commandTransfer_endpoints (fun _ _ _ hd => mkdirPath_inv hd) h
  | cmdMkfile e tail => exact commandTransfer_endpoints (fun _ _ _ hd => mkfilePath_inv hd) h
  | cmdTouch e tail => exact commandTransfer_endpoints (fun _ _ _ hd => touchPath_inv hd) h
  | cmdListfiles e tail => exact commandTransfer_endpoints (fun _ _ _ hd => listFiles_inv hd) h
  | cmdGetlen e tail => exact commandTransfer_endpoints (fun _ _ _ hd => getLen_inv hd) h

/-! ## A step -/

theorem loadTx_endpoints {e : EndpointId} {bytes : Bytes} {s t : State} (h : loadTx e bytes s = .next t) :
    EndpointsMoved s t := by
  obtain ⟨x, -, h⟩ := withEndpoint_eq_next.mp h
  split at h
  · obtain rfl := Host.Outcome.next.inj h
    exact .loaded e _ _
  · exact nomatch h
  · exact nomatch h

theorem rejectRequest_endpoints {r : Request} {why : DecodeError} {s t : State} (h : rejectRequest r why s = .next t) :
    EndpointsMoved s t := by
  unfold rejectRequest at h
  split at h
  · exact commandTransfer_endpoints (fun _ _ _ hd => hd) h
  · exact answerTarget_endpoints h
  · exact nomatch h

/-- What a step makes of the endpoints. -/
theorem step_endpoints {s t : State} (h : step s = .next t) : EndpointsMoved s t := by
  unfold step advance at h
  split at h
  · obtain rfl := Host.Outcome.next.inj h
    exact .agents
  · rename_i input rest _
    have hu : EndpointsMoved s { s.interleave with pending := rest, periCalls := [] } :=
      .trans .agents (.same rfl)
    cases input with
    | loadTx e bytes => exact hu.trans (loadTx_endpoints h)
    | request r =>
      simp only [acceptInput, present] at h
      split at h
      · exact hu.trans (exec_endpoints h)
      · exact hu.trans (rejectRequest_endpoints h)

end Sys2Proof.Machine
end

section
/-! The invariants of the endpoints along `EndpointsMoved`: the counters of the sessions (R41, R42) and the state at rest (R32,
R34, R203 (3)). A property that the writes of background agents keep passes the points at which they write; between those a
transfer changes one endpoint at a time. -/

namespace Sys2Proof.Machine

/-! ## A property of every endpoint -/

/-- Every endpoint of the list, with its identifier, has the property. -/
def State.Each (P : EndpointId → Endpoint → Prop) (s : State) : Prop := ∀ p ∈ s.endpoints, P p.1 p.2

/-- The property survives whatever agents write. -/
def AgentProof (P : EndpointId → Endpoint → Prop) : Prop := ∀ e x y, AgentsMade x y → P e x → P e y

section
variable {P Q : EndpointId → Endpoint → Prop} {s t : State}

theorem State.Each.of_endpoints (h : s.Each P) (he : t.endpoints = s.endpoints) : t.Each P := by
  unfold State.Each
  rw [he]
  exact h

theorem State.Each.modifyEndpoint (h : s.Each P) {e : EndpointId} {g : Endpoint → Endpoint}
    (hsame : ∀ x, P e x → Q e (g x)) (hother : ∀ f x, f ≠ e → P f x → Q f x) : (s.modifyEndpoint e g).Each Q := by
  intro p hp
  obtain ⟨⟨f, x⟩, hq, rfl⟩ := List.mem_map.mp hp
  by_cases hf : f = e
  · subst hf
    simpa using hsame x (h _ hq)
  · simpa [hf] using hother f x hf (h _ hq)

theorem State.Each.foldl_agentWrite (hP : AgentProof P) (batch : List (EndpointId × AgentWrite)) (h : s.Each P) :
    (batch.foldl State.agentWrite s).Each P := by
  induction batch generalizing s with
  | nil => exact h
  | cons p rest ih =>
    rw [List.foldl_cons]
    exact ih (h.modifyEndpoint (fun x => hP _ _ _ (AgentsMade.write p.2 x)) fun _ _ _ => id)

theorem State.Each.interleave (hP : AgentProof P) (h : s.Each P) : s.interleave.Each P := by
  unfold State.interleave
  split
  · exact h
  · exact State.Each.foldl_agentWrite hP _ h

end

/-! ## The counters of the sessions (R41, R42) -/

/-- No agent writes a device (R43, R80). -/
theorem agentProof_deviceInv : AgentProof fun _ x => x.device.Inv := by
  intro _ x y hmade hx
  rw [hmade.1]
  exact hx

section
variable {s t : State} (hs : SessionInv s)
include hs

theorem SessionInv.of_endpoints (he : t.endpoints = s.endpoints) : SessionInv t :=
  State.Each.of_endpoints (P := fun _ x => x.device.Inv) hs he

theorem SessionInv.interleave : SessionInv s.interleave := State.Each.interleave agentProof_deviceInv hs

/-- A change of an endpoint that is none of its device. -/
theorem SessionInv.modifyEndpoint (e : EndpointId) {g : Endpoint → Endpoint} (hg : ∀ x, (g x).device = x.device) :
    SessionInv (s.modifyEndpoint e g) :=
  State.Each.modifyEndpoint (P := fun _ x => x.device.Inv) (Q := fun _ x => x.device.Inv) hs
    (fun x hx => (hg x).symm ▸ hx) fun _ _ _ => id

theorem SessionInv.putDevice (e : EndpointId) {d : Device} (hd : d.Inv) : SessionInv (s.putDevice e d) :=
  State.Each.modifyEndpoint (P := fun _ x => x.device.Inv) (Q := fun _ x => x.device.Inv) hs
    (fun _ _ => hd) fun _ _ _ => id

theorem SessionInv.putBusy (e : EndpointId) (b : Bool) : SessionInv (s.putBusy e b) :=
  hs.interleave.modifyEndpoint e fun _ => rfl
theorem SessionInv.putReady (e : EndpointId) (b : Bool) : SessionInv (s.putReady e b) :=
  hs.interleave.modifyEndpoint e fun _ => rfl
theorem SessionInv.putStatus (e : EndpointId) (c : Int) : SessionInv (s.putStatus e c) :=
  hs.interleave.modifyEndpoint e fun _ => rfl
theorem SessionInv.putBlockSize (e : EndpointId) (v : BlockSize) : SessionInv (s.putBlockSize e v) :=
  hs.interleave.modifyEndpoint e fun _ => rfl
theorem SessionInv.enterTransfer (e : EndpointId) : SessionInv (s.enterTransfer e) :=
  (hs.putBusy e true).putReady e false
theorem SessionInv.leaveTransfer (e : EndpointId) : SessionInv (s.leaveTransfer e) :=
  (hs.putBusy e false).putReady e true

theorem SessionInv.baudDelay (e : EndpointId) (bytes t0 : Nat) : SessionInv (baudDelay e bytes t0 s) := by
  unfold Machine.baudDelay
  split
  · exact hs
  · have ht : SessionInv s.tick := hs
    exact (ht.modifyEndpoint e
      (g := fun x => { x with delayAcc := (delayStep x.delayAcc bytes x.baud (s.tick.now - t0)).1 })
      fun _ => rfl).of_endpoints rfl

theorem SessionInv.applyConsumed (e : EndpointId) {d : Device} (hd : d.Inv) (status : Option Int) :
    SessionInv (applyConsumed e d status s) := by
  cases status with
  | none => exact hs.putDevice e hd
  | some c => exact (hs.putDevice e hd).putStatus e c

/-- The device of an endpoint that is there. -/
theorem SessionInv.device {e : EndpointId} {x : Endpoint} (hx : s.endpoint? e = some x) : x.device.Inv := by
  obtain ⟨l₁, l₂, hl, -⟩ := List.lookup_eq_some_iff.mp hx
  exact hs (e, x) (by simp [hl])

theorem SessionInv.writeoutEntered (f : EndpointId) (data : Bytes) : SessionInv (writeoutEntered f data s) := by
  have ht : SessionInv s.tick := hs
  exact ((ht.enterTransfer f).interleave.putBlockSize f _).of_endpoints rfl

theorem SessionInv.writeoutWith {run : RunCommand} (hrun : KeepsSession run) {f : EndpointId} {data : Bytes}
    (h : writeoutWith run f data s = .next t) : SessionInv t := by
  obtain ⟨x, y, r, -, hy, hr, rfl⟩ := writeoutWith_eq_next.mp h
  have he := hs.writeoutEntered f data
  exact ((he.applyConsumed f (Endpoint.consumeBy_inv hrun (he.device hy) hr) _).baudDelay f _ _).leaveTransfer f

theorem SessionInv.produceBlock {e f : EndpointId} {n : Nat} (h : produceBlock e f s = .next (t, n)) : SessionInv t := by
  obtain ⟨x, data, d, hx, hp, hw, -⟩ := produceBlock_eq_next.mp h
  have hd : d.Inv := (produceOf_eq_next hp).2 (hs.device hx)
  exact (hs.putDevice e hd).writeoutWith keepsSession_executeText hw

theorem SessionInv.startSend {e : EndpointId} (h : startSend e s = .next t) : SessionInv t := by
  have ht : SessionInv s.tick := hs
  rcases startSend_eq_next h with ⟨x, -, -, rfl⟩ | ⟨x, f, u, n, more, -, -, hp, -, rfl⟩
  · exact (ht.enterTransfer e).leaveTransfer e
  · exact ((((ht.enterTransfer e).produceBlock hp).putBlockSize e _).baudDelay e _ _).leaveTransfer e

theorem SessionInv.endpointsMoved (h : EndpointsMoved s t) : SessionInv t := by
  induction h with
  | same h => exact hs.of_endpoints h
  | trans _ _ ih1 ih2 => exact ih2 (ih1 hs)
  | agents => exact hs.interleave
  | delivered hrun h => exact hs.writeoutWith hrun h
  | sent h => exact hs.startSend h
  | turned e b => exact hs.modifyEndpoint e fun _ => rfl
  | resized e _ => exact hs.putBlockSize e _
  | loaded e tx rx => exact hs.putDevice e trivial
  | recabled e r => exact hs.modifyEndpoint e fun _ => rfl
  | destroyed keep h => exact fun p hp => hs p (List.mem_of_mem_filter (h ▸ hp))
  | created k card =>
    intro p hp
    obtain hp | ⟨b, hb⟩ := mem_createEndpoints hp
    · exact hs p hp
    · rw [hb]
      exact Device.inv_reset _
  | reset =>
    intro p hp
    obtain ⟨q, -, rfl⟩ := List.mem_map.mp hp
    exact Device.inv_reset _

end

/-- Settles O54: the counters along every change of the endpoints that a step makes. -/
theorem sessionInvKept : Obligations.SessionInvKept := fun _ _ hs h => hs.endpointsMoved (step_endpoints h)

/-! ## Endpoints at rest (R32, R34, R203 (3)) -/

theorem AgentsMade.atRest {x y : Endpoint} (h : AgentsMade x y) (hx : x.AtRest) : y.AtRest := by
  obtain ⟨heq, hquiet, hlen⟩ := h
  obtain ⟨hidle, hcount⟩ := hx
  refine ⟨fun hb => ?_, hlen hcount⟩
  have hbx : x.bgAgent = false := by rw [heq] at hb; exact hb
  rw [hquiet (Endpoint.runsAgent_of_bgAgent hbx)]
  exact hidle hbx

/-- Of an endpoint whose flags a transfer may have set, only the count is known; any other is at rest. -/
def RestingBut (l : List EndpointId) (e : EndpointId) (x : Endpoint) : Prop :=
  x.blockSize.len ≤ Config.block ∧ (e ∉ l → x.AtRest)

theorem agentProof_restingBut (l : List EndpointId) : AgentProof (RestingBut l) :=
  fun _ _ _ hmade ⟨hlen, hrest⟩ => ⟨hmade.2.2 hlen, fun he => hmade.atRest (hrest he)⟩

theorem linkInv_iff {s : State} : LinkInv s ↔ s.Each (RestingBut []) :=
  forall₂_congr fun _ _ => ⟨fun h => ⟨h.2, fun _ => h⟩, fun h => h.2 List.not_mem_nil⟩

section
variable {l : List EndpointId} {s t : State} (hs : s.Each (RestingBut l))
include hs

/-- A change of an endpoint that is none of its flags and keeps its count in bounds. -/
theorem resting_modifyEndpoint (e : EndpointId) {g : Endpoint → Endpoint}
    (hg : ∀ x, (g x).bgAgent = x.bgAgent ∧ (g x).ready = x.ready ∧ (g x).busy = x.busy)
    (hlen : ∀ x, x.blockSize.len ≤ Config.block → (g x).blockSize.len ≤ Config.block) :
    (s.modifyEndpoint e g).Each (RestingBut l) := by
  refine State.Each.modifyEndpoint hs (fun x hx => ⟨hlen x hx.1, fun he => ⟨?_, hlen x hx.1⟩⟩) fun _ _ _ => id
  obtain ⟨hagent, hready, hbusy⟩ := hg x
  rw [hagent, hready, hbusy]
  exact (hx.2 he).1

theorem resting_interleave : s.interleave.Each (RestingBut l) := State.Each.interleave (agentProof_restingBut l) hs

theorem resting_putStatus (e : EndpointId) (c : Int) : (s.putStatus e c).Each (RestingBut l) :=
  resting_modifyEndpoint (resting_interleave hs) e (fun _ => ⟨rfl, rfl, rfl⟩) fun _ => id
theorem resting_putBlockSize (e : EndpointId) {v : BlockSize} (hv : v.len ≤ Config.block) :
    (s.putBlockSize e v).Each (RestingBut l) :=
  resting_modifyEndpoint (resting_interleave hs) e (fun _ => ⟨rfl, rfl, rfl⟩) fun _ _ => hv
theorem resting_putDevice (e : EndpointId) (d : Device) : (s.putDevice e d).Each (RestingBut l) :=
  resting_modifyEndpoint hs e (fun _ => ⟨rfl, rfl, rfl⟩) fun _ => id

/-- A transfer that begins on an endpoint may set its flags. -/
theorem resting_enterTransfer (e : EndpointId) : (s.enterTransfer e).Each (RestingBut (e :: l)) := by
  have hbusy : (s.putBusy e true).Each (RestingBut (e :: l)) :=
    State.Each.modifyEndpoint (resting_interleave hs) (fun _ hx => ⟨hx.1, fun he => absurd List.mem_cons_self he⟩)
      fun _ _ _ hx => ⟨hx.1, fun he => hx.2 fun hl => he (List.mem_cons_of_mem _ hl)⟩
  exact State.Each.modifyEndpoint (resting_interleave hbusy)
    (fun _ hx => ⟨hx.1, fun he => absurd List.mem_cons_self he⟩) fun _ _ _ => id

theorem resting_baudDelay (e : EndpointId) (bytes t0 : Nat) : (baudDelay e bytes t0 s).Each (RestingBut l) := by
  unfold baudDelay
  split
  · exact hs
  · have ht : s.tick.Each (RestingBut l) := hs
    exact (resting_modifyEndpoint ht e
      (g := fun x => { x with delayAcc := (delayStep x.delayAcc bytes x.baud (s.tick.now - t0)).1 })
      (fun _ => ⟨rfl, rfl, rfl⟩) fun _ => id).of_endpoints rfl

theorem resting_applyConsumed (e : EndpointId) (d : Device) (status : Option Int) :
    (applyConsumed e d status s).Each (RestingBut l) := by
  cases status with
  | none => exact resting_putDevice hs e d
  | some c => exact resting_putStatus (resting_putDevice hs e d) e c

end

/-- An endpoint without an agent is not busy any more. -/
def Freed (l : List EndpointId) (e f : EndpointId) (x : Endpoint) : Prop :=
  RestingBut (e :: l) f x ∧ (f = e → x.bgAgent = false → x.busy = false)

theorem agentProof_freed (l : List EndpointId) (e : EndpointId) : AgentProof (Freed l e) := by
  rintro f x y hmade ⟨hrest, hfree⟩
  refine ⟨agentProof_restingBut _ f x y hmade hrest, fun hf hb => ?_⟩
  have hbx : x.bgAgent = false := by rw [hmade.1] at hb; exact hb
  rw [hmade.2.1 (Endpoint.runsAgent_of_bgAgent hbx)]
  exact hfree hf hbx

/-- A transfer that ends on an endpoint leaves it at rest: busy is cleared first, ready set second, and between the two only
agents write (R32, R185, R187). -/
theorem resting_leaveTransfer {l : List EndpointId} {s : State} {e : EndpointId} (hs : s.Each (RestingBut (e :: l))) :
    (s.leaveTransfer e).Each (RestingBut l) := by
  have hfreed : (s.putBusy e false).Each (Freed l e) :=
    State.Each.modifyEndpoint (resting_interleave hs)
      (fun _ hx => ⟨⟨hx.1, fun he => absurd List.mem_cons_self he⟩, fun _ _ => rfl⟩)
      fun _ _ hf hx => ⟨hx, fun he => absurd he hf⟩
  exact State.Each.modifyEndpoint (State.Each.interleave (agentProof_freed l e) hfreed)
    (fun _ ⟨hx, hfree⟩ => ⟨hx.1, fun _ => ⟨fun hb => ⟨rfl, hfree rfl hb⟩, hx.1⟩⟩)
    fun _ _ hf ⟨hx, _⟩ => ⟨hx.1, fun hl => hx.2 fun hmem => (List.mem_cons.mp hmem).elim hf hl⟩

section
variable {l : List EndpointId} {s t : State} (hs : s.Each (RestingBut l))
include hs

theorem resting_writeoutEntered (f : EndpointId) (data : Bytes) :
    (writeoutEntered f data s).Each (RestingBut (f :: l)) := by
  have ht : s.tick.Each (RestingBut l) := hs
  exact (resting_putBlockSize (resting_interleave (resting_enterTransfer ht f)) f
    (Nat.min_le_right data.length Config.block)).of_endpoints rfl

/-- A WRITEOUT begins and ends on its receiver (R187). -/
theorem resting_writeoutWith {run : RunCommand} {f : EndpointId} {data : Bytes}
    (h : writeoutWith run f data s = .next t) : t.Each (RestingBut l) := by
  obtain ⟨x, y, r, -, -, -, rfl⟩ := writeoutWith_eq_next.mp h
  exact resting_leaveTransfer
    (resting_baudDelay (resting_applyConsumed (resting_writeoutEntered hs f data) f _ _) f _ _)

/-- A send hook leaves the endpoints as they rest, and answers a count of at most one block (R181). -/
theorem resting_produceBlock {e f : EndpointId} {n : Nat} (h : produceBlock e f s = .next (t, n)) :
    t.Each (RestingBut l) ∧ n ≤ Config.block := by
  obtain ⟨x, data, d, -, hp, hw, rfl⟩ := produceBlock_eq_next.mp h
  exact ⟨resting_writeoutWith (resting_putDevice hs e d) hw, (produceOf_eq_next hp).1⟩

/-- A START_SEND begins and ends on its sender (R185). -/
theorem resting_startSend {e : EndpointId} (h : startSend e s = .next t) : t.Each (RestingBut l) := by
  have ht : s.tick.Each (RestingBut l) := hs
  have hentered := resting_enterTransfer ht e
  rcases startSend_eq_next h with ⟨x, -, -, rfl⟩ | ⟨x, f, u, n, more, -, -, hp, -, rfl⟩
  · exact resting_leaveTransfer hentered
  · obtain ⟨hu, hn⟩ := resting_produceBlock hentered hp
    exact resting_leaveTransfer (resting_baudDelay (resting_putBlockSize hu e hn) e _ _)

end

/-- An endpoint just built is at rest (R320, R321). -/
theorem EndpointBuild.atRest_construct (owner : Option Slot) (b : EndpointBuild) : (b.construct owner).AtRest :=
  ⟨fun _ => ⟨rfl, rfl⟩, Nat.zero_le _⟩

/-- An endpoint after RESET is at rest (R321). -/
theorem Endpoint.atRest_reset (x : Endpoint) : x.reset.AtRest := ⟨fun _ => ⟨rfl, rfl⟩, Nat.zero_le _⟩

theorem LinkInv.endpointsMoved {s t : State} (hs : LinkInv s) (h : EndpointsMoved s t) : LinkInv t := by
  rw [linkInv_iff] at hs ⊢
  induction h with
  | same h => exact hs.of_endpoints h
  | trans _ _ ih1 ih2 => exact ih2 (ih1 hs)
  | agents => exact resting_interleave hs
  | delivered _ h => exact resting_writeoutWith hs h
  | sent h => exact resting_startSend hs h
  | resized e hv => exact resting_putBlockSize hs e hv
  | turned e | loaded e | recabled e => exact resting_modifyEndpoint hs e (fun _ => ⟨rfl, rfl, rfl⟩) fun _ => id
  | destroyed keep h => exact fun p hp => hs p (List.mem_of_mem_filter (h ▸ hp))
  | created k card =>
    intro p hp
    obtain hp | ⟨b, hb⟩ := mem_createEndpoints hp
    · exact hs p hp
    · have hrest : p.2.AtRest := hb ▸ b.atRest_construct (some k)
      exact ⟨hrest.2, fun _ => hrest⟩
  | reset =>
    intro p hp
    obtain ⟨q, -, rfl⟩ := List.mem_map.mp hp
    exact ⟨q.2.atRest_reset.2, fun _ => q.2.atRest_reset⟩

/-- Settles O34: the endpoints rest again after every change of them that a step makes. -/
theorem linkInvKept : Obligations.LinkInvKept := fun _ _ hs h => hs.endpointsMoved (step_endpoints h)

end Sys2Proof.Machine
end

section
/-! A machine just built (R320, R321) meets every invariant. -/

namespace Sys2Proof.Machine

/-- Every endpoint of a machine just built is one of its build (R320). -/
theorem mem_construct {b : Build} {p : EndpointId × Endpoint} (hp : p ∈ (State.construct b).endpoints) :
    ∃ q : EndpointBuild, p.2 = q.construct none := by
  obtain ⟨q, -, rfl⟩ := List.mem_map.mp hp
  exact ⟨q.2, rfl⟩

theorem slot_construct (b : Build) (k : Slot) : (State.construct b).slot k = none := by
  simp [State.slot, State.construct]

/-- Only a vendor device gets a background agent (R43, R202). -/
theorem EndpointBuild.vendor_of_bgAgent (owner : Option Slot) {b : EndpointBuild}
    (h : (b.construct owner).bgAgent = true) : ∃ id token, (b.construct owner).device = .vendor id token := by
  simp only [EndpointBuild.construct, Bool.and_eq_true] at h ⊢
  cases hd : b.device with
  | vendor id token => exact ⟨id, token, rfl⟩
  | reference | command => simp [hd, Device.mayRunAgent] at h

/-- A command session begins at its reset values (R321). -/
theorem Device.session_of_reset {d : Device} {c : CommandDevice} (h : d.reset = .command c) :
    c.session = Session.reset := by
  cases d with
  | command d =>
    obtain rfl := Device.command.inj h
    rfl
  | reference | vendor => exact nomatch h

/-- A reference endpoint begins with an empty queue and an empty log (R321). -/
theorem Device.queues_of_reset {d : Device} {tx rx : Bytes} (h : d.reset = .reference tx rx) : tx = [] ∧ rx = [] := by
  cases d with
  | reference tx' rx' =>
    obtain ⟨htx, hrx⟩ := Device.reference.inj h
    exact ⟨htx.symm, hrx.symm⟩
  | command | vendor => exact nomatch h

theorem MemoryInv.construct (b : Build) : MemoryInv (State.construct b) :=
  ⟨Memory.wf_nil, fun _ hc => absurd hc List.not_mem_nil⟩

theorem TableInv.construct (b : Build) : TableInv (State.construct b) :=
  fun k _ hk => nomatch (slot_construct b k).symm.trans hk

theorem SessionInv.construct (b : Build) : SessionInv (State.construct b) := by
  intro p hp
  obtain ⟨q, hq⟩ := mem_construct hp
  rw [hq]
  exact Device.inv_reset _

theorem LinkInv.construct (b : Build) : LinkInv (State.construct b) := by
  intro p hp
  obtain ⟨q, hq⟩ := mem_construct hp
  exact hq ▸ q.atRest_construct none

theorem CableInv.construct (b : Build) : CableInv (State.construct b) := by
  intro p hp
  obtain ⟨q, hq⟩ := mem_construct hp
  rw [hq]
  exact nofun

/-- Settles O39: the fields by construction, the invariants by their lemmas. -/
theorem constructedMachine : Obligations.ConstructedMachine := by
  refine ⟨rfl, fun b => ⟨rfl, rfl, slot_construct b, rfl, rfl, fun p hp => ?_, .construct b, .of_empty rfl rfl,
    .construct b, .construct b, .construct b, .construct b⟩⟩
  obtain ⟨q, hq⟩ := mem_construct hp
  rw [hq]
  exact ⟨rfl, rfl, rfl, rfl, rfl, rfl, rfl, EndpointBuild.vendor_of_bgAgent none, fun _ => Device.session_of_reset,
    fun _ _ => Device.queues_of_reset⟩

end Sys2Proof.Machine
end

section
/-! What is refused (R306): the run state, operands out of their bounds, endpoints that are not there, a send hook that breaks its
contract. -/

namespace Sys2Proof.Machine

/-! ## The checks that refuse -/

section
variable {s : State}

/-- An operation of the RUNNING state is refused while HALTED (R26, U11). -/
theorem requireRunning_halted (h : s.runState = .halted) (r : Res State) :
    requireRunning s r = .refused .whileHalted := by
  unfold requireRunning
  rw [h]

theorem requireRunning_running (h : s.runState = .running) (r : Res State) : requireRunning s r = r := by
  unfold requireRunning
  rw [h]

/-- INSTALL and REMOVE are refused while RUNNING (R26, U10). -/
theorem requireHalted_running (h : s.runState = .running) (r : Res State) :
    requireHalted s r = .refused .whileRunning := by
  unfold requireHalted
  rw [h]

theorem requireHalted_halted (h : s.runState = .halted) (r : Res State) : requireHalted s r = r := by
  unfold requireHalted
  rw [h]

/-- An operation on an endpoint that does not exist is refused (U12). -/
theorem withEndpoint_none {α : Type} {e : EndpointId} (h : s.endpoint? e = none) (k : Endpoint → Res α) :
    withEndpoint s e k = .refused (.noEndpoint e) := by
  unfold withEndpoint
  rw [h]

theorem execInstall_cfgOperand (hrun : s.runState = .halted) (card : Peripheral) {k : Nat} {m r n : Int}
    (h : 8 ≤ k ∨ m < 0 ∨ 1048576 < m ∨ r < 0 ∨ 131072 < r ∨ n < 0) :
    execInstall k card m r n s = .refused .cfgOperand := by
  have hbounds : installBounds k m r n = false := decide_eq_false (by omega)
  unfold execInstall
  rw [requireHalted_halted hrun, hbounds]
  rfl

theorem execRemove_cfgOperand (hrun : s.runState = .halted) {k : Nat} (h : 8 ≤ k) :
    execRemove k s = .refused .cfgOperand := by
  unfold execRemove
  rw [requireHalted_halted hrun, if_neg (Nat.not_lt.mpr h)]

theorem execAttach_noEndpoint_left {e f : EndpointId} (hne : e ≠ f) (he : s.endpoint? e = none) :
    execAttach e f s = .refused (.noEndpoint e) := by
  unfold execAttach
  rw [if_neg hne, withEndpoint_none he]

theorem execAttach_noEndpoint_right {e f : EndpointId} {x : Endpoint} (hne : f ≠ e) (hf : s.endpoint? f = some x)
    (he : s.endpoint? e = none) : execAttach f e s = .refused (.noEndpoint e) := by
  unfold execAttach
  rw [if_neg hne, withEndpoint_some _ hf, withEndpoint_none he]

/-! ## Transfers on an endpoint that does not exist -/

theorem writeout_noEndpoint {e : EndpointId} (h : s.endpoint? e = none) (data : Bytes) :
    writeout e data s = .refused (.noEndpoint e) := withEndpoint_none h _

theorem startSend_noEndpoint {e : EndpointId} (h : s.endpoint? e = none) :
    startSend e s = .refused (.noEndpoint e) := withEndpoint_none h _

theorem startRead_noEndpoint {e : EndpointId} (h : s.endpoint? e = none) :
    startRead e s = .refused (.noEndpoint e) := withEndpoint_none h _

/-! ## Transfers along a recipient that does not exist, or from a device without a block -/

variable {e f : EndpointId} {x : Endpoint}

theorem startRead_noRecipient (hx : s.endpoint? e = some x) (hf : x.recipient = some f) (hnone : s.endpoint? f = none) :
    startRead e s = .refused (.noEndpoint f) := by
  unfold startRead
  rw [withEndpoint_some _ hx]
  simp only [hf, startSend_noEndpoint hnone]

/-- The first turn of the loop is refused, and with it the operation (R189). -/
theorem recvMessage_noRecipient (hx : s.endpoint? e = some x) (hf : x.recipient = some f)
    (hnone : s.endpoint? f = none) : recvMessage e f s = .refused (.noEndpoint f) := by
  have hread : startRead e { s with wire := none } = .refused (.noEndpoint f) :=
    startRead_noRecipient (s := { s with wire := none }) hx hf hnone
  have hturn : recvTurn e f [] s = .inl (.refused (.noEndpoint f)) := by
    simp only [recvTurn, recvRound, hread, andThen_refused]
  rw [recvMessage_eq hx hf, recvLoop_eq_some_iff.mpr ⟨1, by rw [recvWithin, hturn]⟩]
  rfl

/-- What the send hook picks does not depend on the flags. -/
theorem produceOf_transferring (e : EndpointId) (x : Endpoint) :
    produceOf e { x with busy := true, ready := false } = produceOf e x := rfl

/-- A START_SEND with a recipient fails where the send hook does, or the WRITEOUT of what it picks (R181, R185). -/
theorem startSend_eq_of_live (hx : s.endpoint? e = some x) (hb : x.bgAgent = false) (hf : x.recipient = some f) :
    startSend e s =
      andThen
        (andThen (produceOf e x) fun (data, d) =>
          andThen (writeout f data ((s.tick.enterTransfer e).putDevice e d)) fun s' => .next (s', data.length))
        fun (s2, count) => andThen (hasNextHook e s2) fun more =>
          .next ((baudDelay e count s.tick.now (s2.putBlockSize e ⟨count, more⟩)).leaveTransfer e) := by
  have hx1 : (s.tick.enterTransfer e).endpoint? e = some { x with busy := true, ready := false } :=
    enterTransfer_at (s := s.tick) hx hb
  have hrec : (s.tick.enterTransfer e).recipientOf e = some f := by
    unfold State.recipientOf
    rw [hx1]
    exact hf
  unfold startSend
  rw [withEndpoint_some _ hx]
  simp only [hrec, produceBlock, withEndpoint_some _ hx1, produceOf_transferring]

theorem startSend_noRecipient (hx : s.endpoint? e = some x) (hb : x.bgAgent = false) (hf : x.recipient = some f)
    (hnone : s.endpoint? f = none) {data : Bytes} {d : Device} (hp : produceOf e x = .next (data, d)) :
    startSend e s = .refused (.noEndpoint f) := by
  have hne : f ≠ e := by
    rintro rfl
    exact nomatch hx.symm.trans hnone
  have hentered : (s.tick.enterTransfer e).endpoint? f = none :=
    (((EndpointsKept.tick s [e]).trans (EndpointsKept.enterTransfer _ e)) f (by simpa using hne)).1 hnone
  have hput : ((s.tick.enterTransfer e).putDevice e d).endpoint? f = none := by
    rw [State.endpoint?_putDevice, if_neg hne, hentered]
  rw [startSend_eq_of_live hx hb hf, hp]
  simp only [andThen_next, writeout_noEndpoint hput, andThen_refused]

/-- A vendor device's send hook that never returns leaves a START_SEND stuck (R181, R300). -/
theorem startSend_hookStuck {id token : Nat} (hx : s.endpoint? e = some x) (hb : x.bgAgent = false)
    (hf : x.recipient = some f) (hd : x.device = .vendor id token)
    (hhook : Config.hookProduce id token x.blockSize.len = none) : startSend e s = .fault (.neverReturns (.device e)) := by
  have hp : produceOf e x = .fault (.neverReturns (.device e)) := by
    unfold produceOf
    simp only [hd, hhook]
  rw [startSend_eq_of_live hx hb hf, hp]
  rfl

/-- A vendor device's send hook that picks more than a block breaks its contract (R181, U8). -/
theorem startSend_hookContract {id token : Nat} (hx : s.endpoint? e = some x) (hb : x.bgAgent = false)
    (hf : x.recipient = some f) (hd : x.device = .vendor id token) {data : Bytes} {token' : Nat}
    (hhook : Config.hookProduce id token x.blockSize.len = some (data, token')) (hlen : Config.block < data.length) :
    startSend e s = .refused (.hookContract e) := by
  have hp : produceOf e x = .refused (.hookContract e) := by
    unfold produceOf
    simp only [hd, hhook]
    exact if_neg (Nat.not_le.mpr hlen)
  rw [startSend_eq_of_live hx hb hf, hp]
  rfl

end

/-! ## The statement -/

/-- An operation that ends with `Ack` is refused where its transfer is. -/
theorem ackAfter_refused {s : State} (hrun : s.runState = .running) {r : Res State} {why : Refusal}
    (h : r = .refused why) : requireRunning s (ackAfter r) = .refused why := by
  rw [requireRunning_running hrun, h]
  rfl

/-- An operation that ends with `Ack` is stuck where its transfer is. -/
theorem ackAfter_fault {s : State} (hrun : s.runState = .running) {r : Res State} {why : Fault} (h : r = .fault why) :
    requireRunning s (ackAfter r) = .fault why := by
  rw [requireRunning_running hrun, h]
  rfl

theorem execCable_noEndpoint {s : State} (hrun : s.runState = .running) {e : EndpointId} (he : s.endpoint? e = none) :
    execCable e s = .refused (.noEndpoint e) := by
  unfold execCable
  rw [requireRunning_running hrun, withEndpoint_none he]

theorem execHasNext_noEndpoint {s : State} (hrun : s.runState = .running) {e : EndpointId}
    (he : s.endpoint? e = none) : execHasNext e s = .refused (.noEndpoint e) := by
  unfold execHasNext hasNextHook
  rw [requireRunning_running hrun, withEndpoint_none he, andThen_refused]

theorem execRecvMessage_noEndpoint {s : State} (hrun : s.runState = .running) {e : EndpointId}
    (he : s.endpoint? e = none) : execRecvMessage e s = .refused (.noEndpoint e) := by
  unfold execRecvMessage
  rw [requireRunning_running hrun, withEndpoint_none he]

theorem execRecvMessage_noRecipient {s : State} (hrun : s.runState = .running) {e f : EndpointId} {x : Endpoint}
    (hx : s.endpoint? e = some x) (hf : x.recipient = some f) (hnone : s.endpoint? f = none) :
    execRecvMessage e s = .refused (.noEndpoint f) := by
  unfold execRecvMessage
  rw [requireRunning_running hrun, withEndpoint_some _ hx]
  simp only [hf, recvMessage_noRecipient hx hf hnone]

/-- Settles O40: each operation by the first of its checks that fails. -/
theorem refusals : Obligations.Refusals := by
  intro s
  refine ⟨fun hrun => ?halted, fun hrun => ?running, fun e => if_pos rfl, fun e he => ?absent,
    fun e x f ⟨hrun, hx, hb⟩ hf hnone => ?stale, fun e x f id token ⟨hrun, hx, hb⟩ hf hd => ?hook⟩
  case halted =>
    have refused := requireRunning_halted hrun
    exact ⟨fun _ => refused _, fun _ _ => refused _, fun _ => refused _, fun _ => refused _, fun _ => refused _,
      fun _ => refused _, fun _ => refused _, fun _ => refused _, fun _ _ => refused _, fun _ => refused _,
      fun _ card _ _ _ => execInstall_cfgOperand hrun card, fun _ => execRemove_cfgOperand hrun⟩
  case running =>
    exact ⟨fun _ _ _ _ _ => requireHalted_running hrun _, fun _ => requireHalted_running hrun _⟩
  case absent =>
    exact ⟨fun f hne => execAttach_noEndpoint_left hne.symm he, fun f x hne hf => execAttach_noEndpoint_right hne hf he,
      withEndpoint_none he _, fun hrun => ⟨execCable_noEndpoint hrun he, execHasNext_noEndpoint hrun he,
        ackAfter_refused hrun (startSend_noEndpoint he), ackAfter_refused hrun (startRead_noEndpoint he),
        fun data => ackAfter_refused hrun (writeout_noEndpoint he data), execRecvMessage_noEndpoint hrun he⟩⟩
  case stale =>
    exact ⟨ackAfter_refused hrun (startRead_noRecipient hx hf hnone), execRecvMessage_noRecipient hrun hx hf hnone,
      fun data d hp => ackAfter_refused hrun (startSend_noRecipient hx hb hf hnone hp)⟩
  case hook =>
    cases hhook : Config.hookProduce id token x.blockSize.len with
    | none => exact ackAfter_fault hrun (startSend_hookStuck hx hb hf hd hhook)
    | some r => exact fun hlen => ackAfter_refused hrun (startSend_hookContract hx hb hf hd hhook hlen)

end Sys2Proof.Machine
end

section
/-! Where an address leads (R62 to R66), and READ and WRITE of user RAM and of the windows of a card (R130, R131). -/

namespace Sys2Proof.Machine

/-! ## The windows of the address space (R62, R66) -/

theorem decodeAddress_user {memsize a : Nat} (h : a < memsize) : decodeAddress memsize a = .user a := by
  unfold decodeAddress
  rw [if_pos (by omega), Int.toNat_natCast]

theorem decodeAddress_noMapping {memsize : Nat} {addr : Int} (h : (memsize : Int) ≤ addr ∨ addr ≤ -8388609) :
    decodeAddress memsize addr = .noMapping := by
  unfold decodeAddress
  rw [if_neg (by omega), if_neg (by omega)]

/-- An address below zero is read by the slot and the offset of its distance `r` from -1 (R63). -/
theorem decodeAddress_neg (memsize : Nat) {addr : Int} {r : Nat} (haddr : addr = -(r + 1 : Int)) (h : r < 8388608) :
    decodeAddress memsize addr =
      if r / 1048576 = 0 then .mmio (Fin.ofNat 8 (r % 1048576 / 131072)) (r % 1048576 % 131072)
      else .ram (Fin.ofNat 8 (r / 1048576)) (r % 1048576) := by
  have hr : (-addr - 1).toNat = r := by omega
  unfold decodeAddress
  rw [if_neg (by omega), if_pos (by omega), hr]

theorem decodeAddress_mmioAddress (memsize : Nat) (j : Slot) {w : Nat} (hw : w < 131072) :
    decodeAddress memsize (mmioAddress j w) = .mmio j w := by
  have hj := j.isLt
  rw [decodeAddress_neg memsize (r := 131072 * j.val + w) (by simp [mmioAddress]) (by omega), if_pos (by omega)]
  have hwindow : (131072 * j.val + w) % 1048576 / 131072 = j.val := by omega
  have hoff : (131072 * j.val + w) % 1048576 % 131072 = w := by omega
  rw [hwindow, hoff, Fin.ofNat_val_eq_self]

theorem decodeAddress_ramAddress (memsize : Nat) {k : Slot} (hk : k ≠ 0) {off : Nat} (hoff : off < 1048576) :
    decodeAddress memsize (ramAddress k off) = .ram k off := by
  have hlt := k.isLt
  have hpos : k.val ≠ 0 := Fin.val_ne_zero_iff.mpr hk
  rw [decodeAddress_neg memsize (r := 1048576 * k.val + off) (by simp [ramAddress]) (by omega), if_neg (by omega)]
  have hslot : (1048576 * k.val + off) / 1048576 = k.val := by omega
  have hrest : (1048576 * k.val + off) % 1048576 = off := by omega
  rw [hslot, hrest, Fin.ofNat_val_eq_self]

/-- Settles O4: each window by the decoding of its addresses. -/
theorem addressWindows : Obligations.AddressWindows := fun memsize _ =>
  ⟨fun _ => decodeAddress_user, fun j _ => decodeAddress_mmioAddress memsize j,
    fun _ _ hk => decodeAddress_ramAddress memsize hk, fun _ => decodeAddress_noMapping⟩

/-! ## The operations -/

theorem exec_read (addr : Int) (s : State) : exec (.read addr) s = execRead addr s := rfl

theorem exec_write (addr : Int) (v : Byte) (s : State) : exec (.write addr v) s = execWrite addr v s := rfl

/-! ## User RAM (R78, R130, R131) -/

section
variable {s : State} {a : Nat}

theorem exec_read_user (hrun : s.runState = .running) (ha : a < s.memsize) :
    exec (.read a) s = .next (s.respond (.data (s.userByte a))) := by
  rw [exec_read, execRead, requireRunning_running hrun, decodeAddress_user ha]

theorem exec_write_user (hrun : s.runState = .running) (ha : a < s.memsize) (v : Byte) :
    exec (.write a v) s = .next ((s.writeUser a v).respond .ack) := by
  rw [exec_write, execWrite, requireRunning_running hrun, decodeAddress_user ha]

end

/-- Settles O9: the READ finds the byte that the WRITE has put into user RAM. -/
theorem writeThenRead : Obligations.WriteThenRead := by
  intro s a v hrun ha
  have hbyte : ((s.writeUser a v).respond .ack).userByte a = v := by
    have h := State.userByte_writeUser s a a v
    rwa [if_pos rfl] at h
  refine ⟨_, exec_write_user hrun ha v, ?_⟩
  rw [exec_read_user (s := (s.writeUser a v).respond .ack) hrun ha, hbyte]
  rfl

/-! ## Cards (R68, R69) -/

section
variable {s : State} {j k : Slot} {ent : Entry} {w off : Nat}

theorem exec_read_mmio (hrun : s.runState = .running) (he : s.slot j = some ent) (hw : w < 131072)
    (hm : 0 < ent.mmioSize) :
    exec (.read (mmioAddress j w)) s = dataAfter (cardMmioRead j ent (w % ent.mmioSize) s) :=
  (exec_read _ s).trans <| execRead_mmio hrun (decodeAddress_mmioAddress _ j hw) he hm.ne'

theorem exec_write_mmio (hrun : s.runState = .running) (he : s.slot j = some ent) (hw : w < 131072)
    (hm : 0 < ent.mmioSize) (v : Byte) :
    exec (.write (mmioAddress j w) v) s = ackAfter (cardMmioWrite j ent (w % ent.mmioSize) v s) :=
  (exec_write _ v s).trans <| execWrite_mmio v hrun (decodeAddress_mmioAddress _ j hw) he hm.ne'

theorem exec_read_mmio_size_zero (hrun : s.runState = .running) (he : s.slot j = some ent) (hw : w < 131072)
    (hm : ent.mmioSize = 0) : exec (.read (mmioAddress j w)) s = .next (s.respond (.data 0xFF)) := by
  rw [exec_read, execRead, requireRunning_running hrun, decodeAddress_mmioAddress _ j hw]
  simp only [readMmio, he]
  exact if_pos hm

theorem exec_write_mmio_size_zero (hrun : s.runState = .running) (he : s.slot j = some ent) (hw : w < 131072)
    (hm : ent.mmioSize = 0) (v : Byte) : exec (.write (mmioAddress j w) v) s = .next (s.respond .ack) := by
  rw [exec_write, execWrite, requireRunning_running hrun, decodeAddress_mmioAddress _ j hw]
  simp only [writeMmio, he]
  exact if_pos hm

theorem exec_read_ram (hrun : s.runState = .running) (hk : k ≠ 0) (he : s.slot k = some ent)
    (hsize : off < ent.periMemSize) (hoff : off < 1048576) :
    exec (.read (ramAddress k off)) s = dataAfter (cardPeek k ent off s) :=
  (exec_read _ s).trans <| execRead_ram hrun (decodeAddress_ramAddress _ hk hoff) he hsize

theorem exec_write_ram (hrun : s.runState = .running) (hk : k ≠ 0) (he : s.slot k = some ent)
    (hsize : off < ent.periMemSize) (hoff : off < 1048576) (v : Byte) :
    exec (.write (ramAddress k off) v) s = ackAfter (cardPoke k ent off v s) :=
  (exec_write _ v s).trans <| execWrite_ram v hrun (decodeAddress_ramAddress _ hk hoff) he hsize

end

end Sys2Proof.Machine
end

section
/-! Faults are precise (R72, R290, R292): an operation that answers either takes a fault of its own table row in the state it
found, or answers something that is no fault. -/

namespace Sys2Proof.Machine

/-! ## Faults and other answers -/

/-- The answer is no fault. -/
def Response.NoFault (r : Response) : Prop := ∀ f value id, r ≠ .fault f value id

theorem Response.noFault_data (b : Byte) : (Response.data b).NoFault := nofun
theorem Response.noFault_ack : Response.ack.NoFault := nofun
theorem Response.noFault_offset (o : Nat) : (Response.offset o).NoFault := nofun
theorem Response.noFault_bool (b : Bool) : (Response.bool b).NoFault := nofun
theorem Response.noFault_bytes (data : Bytes) : (Response.bytes data).NoFault := nofun
theorem Response.noFault_target (t : Target) : (Response.target t).NoFault := nofun

/-- Which operations raise a fault, and with which value: those of its row of the table of R290. -/
inductive FaultCode.RaisedBy : FaultCode → Int → Instr → Prop
  | read (addr : Int) : RaisedBy .illegalAccess addr (.read addr)
  | write (addr : Int) (v : Byte) : RaisedBy .illegalAccess addr (.write addr v)
  | mallocSize (size : Int) : RaisedBy .invalidAllocSize size (.malloc size)
  | mallocMemory (size : Int) : RaisedBy .outOfMemory size (.malloc size)
  | free (offset : Int) : RaisedBy .invalidFree offset (.free offset)

/-- How an operation answers: a fault of its row, taken in the state it began in (R292), or no fault. -/
inductive Answered (i : Instr) (s : State) : State → Prop
  | fault {f : FaultCode} {value : Int} (h : f.RaisedBy value i) : Answered i s (s.raise f value)
  | answer {t : State} (h : t.response.NoFault) : Answered i s t

section
variable {i : Instr} {s t : State}

theorem Answered.of_raise {f : FaultCode} {value : Int} (h : f.RaisedBy value i)
    (ht : .next (s.raise f value) = (.next t : Res State)) : Answered i s t :=
  Host.Outcome.next.inj ht ▸ .fault h

theorem Answered.of_respond {u : State} {r : Response} (h : r.NoFault) (ht : .next (u.respond r) = (.next t : Res State)) :
    Answered i s t :=
  Host.Outcome.next.inj ht ▸ .answer h

theorem Answered.of_dataAfter {r : Res (State × Option Byte)} (h : dataAfter r = .next t) : Answered i s t := by
  obtain ⟨u, v, -, rfl⟩ := dataAfter_eq_next.mp h
  exact .answer (Response.noFault_data _)

theorem Answered.of_ackAfter {r : Res State} (h : ackAfter r = .next t) : Answered i s t := by
  obtain ⟨u, -, rfl⟩ := ackAfter_eq_next.mp h
  exact .answer Response.noFault_ack

theorem Answered.of_transfer {r : Res State} (h : requireRunning s (ackAfter r) = .next t) : Answered i s t :=
  .of_ackAfter (requireRunning_eq_next.mp h).2

/-! ## READ and WRITE (R130, R131) -/

theorem readMmio_answered {addr : Int} {j : Slot} {w : Nat} (h : readMmio addr j w s = .next t) :
    Answered (.read addr) s t := by
  unfold readMmio at h
  split at h
  · exact .of_raise (.read addr) h
  · split at h
    · exact .of_respond (Response.noFault_data _) h
    · exact .of_dataAfter h

theorem readRam_answered {addr : Int} {k : Slot} {off : Nat} (h : readRam addr k off s = .next t) :
    Answered (.read addr) s t := by
  unfold readRam at h
  split at h
  · exact .of_raise (.read addr) h
  · split at h
    · exact .of_raise (.read addr) h
    · exact .of_dataAfter h

theorem writeMmio_answered {addr : Int} {v : Byte} {j : Slot} {w : Nat} (h : writeMmio addr v j w s = .next t) :
    Answered (.write addr v) s t := by
  unfold writeMmio at h
  split at h
  · exact .of_raise (.write addr v) h
  · split at h
    · exact .of_respond Response.noFault_ack h
    · exact .of_ackAfter h

theorem writeRam_answered {addr : Int} {v : Byte} {k : Slot} {off : Nat} (h : writeRam addr v k off s = .next t) :
    Answered (.write addr v) s t := by
  unfold writeRam at h
  split at h
  · exact .of_raise (.write addr v) h
  · split at h
    · exact .of_raise (.write addr v) h
    · exact .of_ackAfter h

theorem execRead_answered {addr : Int} (h : execRead addr s = .next t) : Answered (.read addr) s t := by
  obtain ⟨-, h⟩ := requireRunning_eq_next.mp h
  split at h
  · exact .of_respond (Response.noFault_data _) h
  · exact readMmio_answered h
  · exact readRam_answered h
  · exact .of_raise (.read addr) h

theorem execWrite_answered {addr : Int} {v : Byte} (h : execWrite addr v s = .next t) : Answered (.write addr v) s t := by
  obtain ⟨-, h⟩ := requireRunning_eq_next.mp h
  split at h
  · exact .of_respond Response.noFault_ack h
  · exact writeMmio_answered h
  · exact writeRam_answered h
  · exact .of_raise (.write addr v) h

/-! ## The allocator's operations (R161, R163) -/

theorem execMalloc_answered {size : Int} (h : execMalloc size s = .next t) : Answered (.malloc size) s t := by
  obtain ⟨-, h⟩ := requireRunning_eq_next.mp h
  split at h
  · exact .of_raise (.mallocSize size) h
  · split at h
    · exact .of_raise (.mallocMemory size) h
    · exact .of_respond (Response.noFault_offset _) h

theorem execFree_answered {offset : Int} (h : execFree offset s = .next t) : Answered (.free offset) s t := by
  obtain ⟨-, h⟩ := requireRunning_eq_next.mp h
  split at h
  · exact .of_raise (.free offset) h
  · simp only at h
    split at h
    · exact .of_raise (.free offset) h
    · exact .of_respond Response.noFault_ack h

/-! ## The operations on links -/

theorem execCable_answered {e : EndpointId} (h : execCable e s = .next t) : Answered i s t := by
  obtain ⟨-, h⟩ := requireRunning_eq_next.mp h
  obtain ⟨x, -, h⟩ := withEndpoint_eq_next.mp h
  exact .of_respond (Response.noFault_bool _) h

theorem execHasNext_answered {e : EndpointId} (h : execHasNext e s = .next t) : Answered i s t := by
  obtain ⟨-, h⟩ := requireRunning_eq_next.mp h
  obtain ⟨b, -, h⟩ := andThen_eq_next.mp h
  exact .of_respond (Response.noFault_bool _) h

theorem recvMessage_answered {e peer : EndpointId} {x : Endpoint} (hx : s.endpoint? e = some x)
    (hp : x.recipient = some peer) (h : recvMessage e peer s = .next t) : Answered i s t := by
  rw [recvMessage_eq hx hp] at h
  cases hl : recvLoop e peer [] s with
  | none => simp [hl] at h
  | some r =>
    obtain rfl : r = .next t := by simpa [hl] using h
    obtain ⟨u, b, -, rfl⟩ := recvLoop_moved hl
    exact .answer (Response.noFault_bytes _)

theorem execRecvMessage_answered {e : EndpointId} (h : execRecvMessage e s = .next t) : Answered i s t := by
  obtain ⟨-, h⟩ := requireRunning_eq_next.mp h
  obtain ⟨x, hx, h⟩ := withEndpoint_eq_next.mp h
  split at h
  · exact .of_respond (Response.noFault_bytes _) h
  · rename_i f hf
    exact recvMessage_answered hx hf h

/-! ## Every operation -/

/-- Only READ, WRITE, MALLOC and FREE answer faults, and each takes its own before it has changed anything. -/
theorem exec_answered (h : exec i s = .next t) : Answered i s t := by
  cases i with
  | read addr => exact execRead_answered h
  | write addr v => exact execWrite_answered h
  | malloc size => exact execMalloc_answered h
  | free offset => exact execFree_answered h
  | attach e f =>
    obtain ⟨-, -, rfl⟩ := execAttach_eq_next.mp h
    exact .answer Response.noFault_ack
  | detach e =>
    obtain ⟨-, rfl⟩ := execDetach_eq_next.mp h
    exact .answer Response.noFault_ack
  | cable e => exact execCable_answered h
  | startSend _ | startRead _ | writeout _ _ => exact .of_transfer h
  | hasNext e => exact execHasNext_answered h
  | recvMessage e => exact execRecvMessage_answered h
  | install k card ram mmio irqs =>
    obtain ⟨-, -, u, -, rfl⟩ := execInstall_eq_next.mp h
    exact .answer Response.noFault_ack
  | remove k =>
    obtain ⟨-, -, u, -, rfl⟩ := execRemove_eq_next.mp h
    exact .answer Response.noFault_ack
  | start | halt | reset => exact .of_respond Response.noFault_ack h
  | addrUser _ | addrMmio0 _ | addrMmio1 _ | addrMmio2 _ | addrMmio3 _ | addrMmio4 _ | addrMmio5 _ | addrMmio6 _
  | addrMmio7 _ | addrRam1 _ | addrRam2 _ | addrRam3 _ | addrRam4 _ | addrRam5 _ | addrRam6 _ | addrRam7 _ =>
    exact .of_respond (Response.noFault_target _) h
  | cmdDevrst _ _ | cmdDevstu _ _ | cmdDevtyp _ _ | cmdDevnam _ _ | cmdOpenr _ _ _ | cmdOpenw _ _ _ | cmdOpena _ _ _
  | cmdRead _ _ | cmdWrite _ _ _ | cmdClose _ _ | cmdDelete _ _ | cmdMkdir _ _ | cmdMkfile _ _ | cmdTouch _ _
  | cmdListfiles _ _ | cmdGetlen _ _ =>
    exact .of_transfer h

end

/-- Settles O55: an answer that is a fault is one that the operation of its row took in the state it began in. -/
theorem faultIsolation : Obligations.FaultIsolation := by
  intro i s t f value id h hresp
  cases exec_answered h with
  | answer hno => exact absurd hresp (hno f value id)
  | fault hraised =>
    obtain ⟨rfl, rfl, rfl⟩ : _ = f ∧ _ = value ∧ s.params.machineId = id := Response.fault.inj hresp
    cases hraised with
    | read => exact ⟨rfl, rfl, fun _ => .inl rfl, nofun, nofun, nofun⟩
    | write _ v => exact ⟨rfl, rfl, fun _ => .inr ⟨v, rfl⟩, nofun, nofun, nofun⟩
    | mallocSize => exact ⟨rfl, rfl, nofun, nofun, fun _ => rfl, nofun⟩
    | mallocMemory => exact ⟨rfl, rfl, nofun, fun _ => rfl, nofun, nofun⟩
    | free => exact ⟨rfl, rfl, nofun, nofun, nofun, fun _ => rfl⟩

end Sys2Proof.Machine
end

section
/-! Calls on cards (R68, R69, R71, R135 to R138): what READ and WRITE make of each kind of card, and the mirroring of its MMIO
window. -/

namespace Sys2Proof.Machine

/-! ## Mirroring (R69) -/

/-- A call on a card is noted once, whatever the card makes of its own state. -/
theorem periCalls_of_cardCall {s u : State} {k : Slot} {ent : Entry} {call : PeriCall}
    (h : u = s.note call ∨ ∃ c : Card, c.kind = ent.card.kind ∧ u = (s.note call).setCard k ent c) :
    u.periCalls = call :: s.periCalls := by
  obtain rfl | ⟨c, -, rfl⟩ := h <;> simp

theorem cardMmioRead_periCalls {j : Slot} {ent : Entry} {m : Nat} {s t : State} {o : Option Byte}
    (h : cardMmioRead j ent m s = .next (t, o)) : t.periCalls = .mmioRead j m :: s.periCalls := by
  obtain ⟨u, hu, rfl | ⟨r, b, hr, -⟩⟩ := cardMmioRead_next h
  · exact periCalls_of_cardCall hu
  · exact (readPort_frame hr).1.periCalls.trans (periCalls_of_cardCall hu)

theorem cardMmioWrite_periCalls {j : Slot} {ent : Entry} {m : Nat} {v : Byte} {s t : State}
    (h : cardMmioWrite j ent m v s = .next t) : t.periCalls = .mmioWrite j m v :: s.periCalls := by
  obtain ⟨u, hu, rfl | ⟨r, hr⟩⟩ := cardMmioWrite_next h
  · exact periCalls_of_cardCall hu
  · exact (writePort_moved hr).periCalls.trans (periCalls_of_cardCall hu)

/-- Settles O11: every access with registers behind it is one call at the mirrored offset. -/
theorem mirroring : Obligations.Mirroring := by
  intro s j ent w w' v hrun he hw hw'
  refine ⟨fun hzero => ⟨exec_read_mmio_size_zero hrun he hw hzero, exec_write_mmio_size_zero hrun he hw hzero v⟩,
    fun hpos => ⟨fun t ht => ?read, fun t ht => ?write, fun hmod => ?same⟩⟩
  case read =>
    rw [exec_read_mmio hrun he hw hpos] at ht
    obtain ⟨u, o, hu, rfl⟩ := dataAfter_eq_next.mp ht
    exact ⟨⟨_, rfl⟩, (u.respond_periCalls _).trans (cardMmioRead_periCalls hu)⟩
  case write =>
    rw [exec_write_mmio hrun he hw hpos] at ht
    obtain ⟨u, hu, rfl⟩ := ackAfter_eq_next.mp ht
    exact ⟨rfl, (u.respond_periCalls _).trans (cardMmioWrite_periCalls hu)⟩
  case same =>
    rw [exec_read_mmio hrun he hw hpos, exec_read_mmio hrun he hw' hpos, exec_write_mmio hrun he hw hpos,
      exec_write_mmio hrun he hw' hpos, hmod]
    exact ⟨rfl, rfl⟩

/-! ## Each kind of card (R135 to R138) -/

section
variable {j k : Slot} {ent : Entry} {off m : Nat} {s : State} {ram regs : Memory} {id token : Nat}

theorem cardPeek_reg (hc : ent.card = .reg ram regs) :
    cardPeek k ent off s = .next (s.note (.peek k off), some ((Memory.read ram off).getD 0)) := by
  unfold cardPeek
  rw [hc]

theorem cardPeek_blank (hc : ent.card = .blank) : cardPeek k ent off s = .next (s.note (.peek k off), none) := by
  unfold cardPeek
  rw [hc]

theorem cardPeek_vendor (hc : ent.card = .vendor id token) :
    cardPeek k ent off s =
      (Config.cardPeek id token off).elim (.fault (.neverReturns (.card k))) fun r =>
        .next ((s.note (.peek k off)).setCard k ent (.vendor id r.2), r.1) := by
  unfold cardPeek
  simp only [hc]
  cases Config.cardPeek id token off <;> rfl

theorem cardPoke_reg (hc : ent.card = .reg ram regs) (v : Byte) :
    cardPoke k ent off v s
      = .next ((s.note (.poke k off v)).setCard k ent (.reg (Memory.write ram off v) regs)) := by
  unfold cardPoke
  rw [hc]

theorem cardPoke_blank (hc : ent.card = .blank) (v : Byte) :
    cardPoke k ent off v s = .next (s.note (.poke k off v)) := by
  unfold cardPoke
  rw [hc]

theorem cardPoke_vendor (hc : ent.card = .vendor id token) (v : Byte) :
    cardPoke k ent off v s =
      (Config.cardPoke id token off v).elim (.fault (.neverReturns (.card k))) fun token' =>
        .next ((s.note (.poke k off v)).setCard k ent (.vendor id token')) := by
  unfold cardPoke
  simp only [hc]
  cases Config.cardPoke id token off v <;> rfl

theorem cardRegisterRead_reg (hc : ent.card = .reg ram regs) :
    cardRegisterRead j ent m s = .next (s, some ((Memory.read regs m).getD 0)) := by
  unfold cardRegisterRead
  rw [hc]

theorem cardRegisterRead_blank (hc : ent.card = .blank) : cardRegisterRead j ent m s = .next (s, none) := by
  unfold cardRegisterRead
  rw [hc]

theorem cardRegisterRead_vendor (hc : ent.card = .vendor id token) :
    cardRegisterRead j ent m s =
      (Config.cardMmioRead id token m).elim (.fault (.neverReturns (.card j))) fun r =>
        .next (s.setCard j ent (.vendor id r.2), r.1) := by
  unfold cardRegisterRead
  simp only [hc]
  cases Config.cardMmioRead id token m <;> rfl

theorem cardRegisterWrite_reg (hc : ent.card = .reg ram regs) (v : Byte) :
    cardRegisterWrite j ent m v s = .next (s.setCard j ent (.reg ram (Memory.write regs m v))) := by
  unfold cardRegisterWrite
  rw [hc]

theorem cardRegisterWrite_blank (hc : ent.card = .blank) (v : Byte) : cardRegisterWrite j ent m v s = .next s := by
  unfold cardRegisterWrite
  rw [hc]

theorem cardRegisterWrite_vendor (hc : ent.card = .vendor id token) (v : Byte) :
    cardRegisterWrite j ent m v s =
      (Config.cardMmioWrite id token m v).elim (.fault (.neverReturns (.card j))) fun token' =>
        .next (s.setCard j ent (.vendor id token')) := by
  unfold cardRegisterWrite
  simp only [hc]
  cases Config.cardMmioWrite id token m v <;> rfl

/-! ## Offsets without a port register (R304) -/

theorem State.portAt_eq_none (h : NoPortAt s j ent.card m) : s.portAt j ent.card m = none := by
  unfold State.portAt
  split
  · rename_i hport
    obtain hne | hhost | hnone := h
    · exact absurd hport.1 hne
    · exact absurd (hport.2.symm.trans hhost) nofun
    · exact hnone
  · rfl

/-- Where no port register is shown, `mmio_read` is the card's own part. -/
theorem cardMmioRead_noPort (h : NoPortAt s j ent.card m) :
    cardMmioRead j ent m s = cardRegisterRead j ent m (s.note (.mmioRead j m)) := by
  unfold cardMmioRead
  rw [State.portAt_eq_none h]
  cases cardRegisterRead j ent m (s.note (.mmioRead j m)) <;> rfl

/-- Where no port register is shown, `mmio_write` is the card's own part. -/
theorem cardMmioWrite_noPort (h : NoPortAt s j ent.card m) (v : Byte) :
    cardMmioWrite j ent m v s = cardRegisterWrite j ent m v (s.note (.mmioWrite j m v)) := by
  unfold cardMmioWrite
  rw [State.portAt_eq_none h]
  cases cardRegisterWrite j ent m v (s.note (.mmioWrite j m v)) <;> rfl

/-! ## Accesses by kind of card -/

/-- A WRITE after which the card in a slot is `c` has changed that card, the response and the calls noted, and nothing else. -/
theorem setCard_ack_frame (s : State) (k : Slot) (ent : Entry) (call : PeriCall) (c : Card) {t : State}
    (ht : t = ((s.note call).setCard k ent c).respond .ack) :
    t.slot k = some { ent with card := c } ∧ (∀ j, j ≠ k → t.slot j = s.slot j) ∧ SameMemory s t ∧
      t = { s with peripheralTable := t.peripheralTable, response := .ack, periCalls := call :: s.periCalls } := by
  subst ht
  exact ⟨State.slot_setSlot_same .., fun j hj => State.slot_setSlot_other _ _ hj, SameMemory.of_eq rfl rfl, rfl⟩

end

/-- Settles O12: one `peek` or `poke`, for each kind of card. -/
theorem cardMemory : Obligations.CardMemory := by
  intro s k ent off v hrun hk he hsize hoff
  rw [exec_read_ram hrun hk he hsize hoff, exec_write_ram hrun hk he hsize hoff]
  refine ⟨fun ram regs hc => ?reg, fun hc => ?blank, fun id token hc => ?vendor⟩
  case reg =>
    rw [cardPeek_reg hc, cardPoke_reg hc]
    obtain ⟨hslot, hothers, hmem, hframe⟩ :=
      setCard_ack_frame s k ent (.poke k off v) (.reg (Memory.write ram off v) regs) rfl
    exact ⟨rfl, _, _, rfl, hslot, fun b => Memory.read_write ram off b v, hothers, hmem, hframe⟩
  case blank =>
    rw [cardPeek_blank hc, cardPoke_blank hc]
    exact ⟨rfl, rfl⟩
  case vendor =>
    rw [cardPeek_vendor hc, cardPoke_vendor hc]
    exact ⟨by cases Config.cardPeek id token off <;> rfl, by cases Config.cardPoke id token off v <;> rfl⟩

/-- Settles O13: the card's own part of one `mmio_read` or `mmio_write`, for each kind of card. -/
theorem cardRegisters : Obligations.CardRegisters := by
  intro s j ent w v hrun he hpos hw hport m read write
  have hread : read = dataAfter (cardRegisterRead j ent m (s.note (.mmioRead j m))) :=
    (exec_read_mmio hrun he hw hpos).trans (congrArg dataAfter (cardMmioRead_noPort hport))
  have hwrite : write = ackAfter (cardRegisterWrite j ent m v (s.note (.mmioWrite j m v))) :=
    (exec_write_mmio hrun he hw hpos v).trans (congrArg ackAfter (cardMmioWrite_noPort hport v))
  rw [hread, hwrite]
  refine ⟨fun ram regs hc => ?reg, fun hc => ?blank, fun id token hc => ?vendor⟩
  case reg =>
    rw [cardRegisterRead_reg hc, cardRegisterWrite_reg hc]
    obtain ⟨hslot, hothers, hmem, hframe⟩ :=
      setCard_ack_frame s j ent (.mmioWrite j m v) (.reg ram (Memory.write regs m v)) rfl
    exact ⟨rfl, _, _, rfl, hslot, fun b => Memory.read_write regs m b v, hothers, hmem, hframe⟩
  case blank =>
    rw [cardRegisterRead_blank hc, cardRegisterWrite_blank hc]
    exact ⟨rfl, rfl⟩
  case vendor =>
    rw [cardRegisterRead_vendor hc, cardRegisterWrite_vendor hc]
    exact ⟨by cases Config.cardMmioRead id token m <;> rfl, by cases Config.cardMmioWrite id token m v <;> rfl⟩

end Sys2Proof.Machine
end

section
/-! A step (log 1): what background agents make of the state before it (R80, log 9), and the operation it runs. -/

namespace Sys2Proof.Machine

/-- What the writes that a batch has for an endpoint make of it, where it has an agent (R80). -/
def Endpoint.afterBatch (e : EndpointId) (batch : List (EndpointId × AgentWrite)) (x : Endpoint) : Endpoint :=
  if x.runsAgent then ((batch.filter (fun p => p.1 = e)).map Prod.snd).foldl (fun y w => w.apply y) x else x

theorem AgentWrite.apply_runsAgent (w : AgentWrite) (x : Endpoint) : (w.apply x).runsAgent = x.runsAgent := by
  cases w <;> rfl

theorem Endpoint.afterBatch_cons_same (e : EndpointId) (w : AgentWrite) (rest : List (EndpointId × AgentWrite))
    (x : Endpoint) :
    x.afterBatch e ((e, w) :: rest) = (if x.runsAgent then w.apply x else x).afterBatch e rest := by
  unfold Endpoint.afterBatch
  by_cases h : x.runsAgent <;> simp [h, AgentWrite.apply_runsAgent]

theorem Endpoint.afterBatch_cons_other {e f : EndpointId} (h : f ≠ e) (w : AgentWrite)
    (rest : List (EndpointId × AgentWrite)) (x : Endpoint) : x.afterBatch e ((f, w) :: rest) = x.afterBatch e rest := by
  simp [Endpoint.afterBatch, h]

theorem State.endpoint?_agentWrite (s : State) (e f : EndpointId) (w : AgentWrite) :
    (s.agentWrite (f, w)).endpoint? e =
      if e = f then (s.endpoint? e).map (fun x => if x.runsAgent then w.apply x else x) else s.endpoint? e :=
  State.endpoint?_modifyEndpoint ..

/-- A batch of agents' writes, on one endpoint. -/
theorem State.endpoint?_foldl_agentWrite (batch : List (EndpointId × AgentWrite)) {s : State} {e : EndpointId}
    {x : Endpoint} (hx : s.endpoint? e = some x) :
    (batch.foldl State.agentWrite s).endpoint? e = some (x.afterBatch e batch) := by
  induction batch generalizing s x with
  | nil => rw [List.foldl_nil, hx, Endpoint.afterBatch, List.filter_nil, List.map_nil, List.foldl_nil, ite_self]
  | cons p rest ih =>
    obtain ⟨f, w⟩ := p
    rw [List.foldl_cons]
    by_cases hf : f = e
    · subst hf
      rw [Endpoint.afterBatch_cons_same]
      exact ih (by rw [State.endpoint?_agentWrite, if_pos rfl, hx, Option.map_some])
    · rw [Endpoint.afterBatch_cons_other hf]
      exact ih (by rw [State.endpoint?_agentWrite, if_neg (Ne.symm hf), hx])

theorem State.interleave_of_nil {s : State} (h : s.agentScript = []) : s.interleave = s := by
  unfold State.interleave
  rw [h]

theorem State.interleave_of_cons {s : State} {batch : List (EndpointId × AgentWrite)}
    {rest : List (List (EndpointId × AgentWrite))} (h : s.agentScript = batch :: rest) :
    s.interleave = batch.foldl State.agentWrite { s with agentScript := rest } := by
  unfold State.interleave
  rw [h]

/-- A step takes the operation at the head of the queue. -/
theorem step_of_decode {s : State} {r : Request} {rest : List Input} {i : Instr} (hp : s.pending = .request r :: rest)
    (hd : decode r = .ok i) : step s = exec i { s.interleave with pending := rest, periCalls := [] } := by
  unfold step advance
  rw [hp]
  simp only [acceptInput, present, hd]

/-- Settles O7: the step by its request, the agents' writes by their batch. -/
theorem stepRunsDecoded : Obligations.StepRunsDecoded := by
  refine ⟨fun s r rest i hp hd => ⟨step_of_decode hp hd, fun hnil => ?_⟩,
    fun s => ⟨EndpointsKept.interleave s [], State.interleave_eq s⟩, fun s e x batch rest hscript hx => ?_⟩
  · rw [step_of_decode hp hd, State.interleave_of_nil hnil]
  · rw [State.interleave_of_cons hscript]
    exact State.endpoint?_foldl_agentWrite batch (s := { s with agentScript := rest }) hx

end Sys2Proof.Machine
end

section
/-! The registers of a serial port (R198 to R201): the card's part of an access in the window of PORT_SLOT (R76), then what the
port's register makes of it. -/

namespace Sys2Proof.Machine

/-! ## Nothing but endpoints and the agents' script -/

/-- Nothing but endpoints and the agents' script differs. -/
def EndpointsOnly (s t : State) : Prop := t = { s with endpoints := t.endpoints, agentScript := t.agentScript }

theorem EndpointsOnly.refl (s : State) : EndpointsOnly s s := rfl

theorem EndpointsOnly.trans {s t u : State} (h1 : EndpointsOnly s t) (h2 : EndpointsOnly t u) : EndpointsOnly s u := by
  unfold EndpointsOnly
  rw [h2, h1]

theorem EndpointsOnly.interleave (s : State) : EndpointsOnly s s.interleave := by
  have h : s.interleave.agentScript = s.agentScript.tail := congrArg State.agentScript s.interleave_eq
  unfold EndpointsOnly
  rw [h]
  exact s.interleave_eq

theorem EndpointsOnly.modifyEndpoint (s : State) (e : EndpointId) (g : Endpoint → Endpoint) :
    EndpointsOnly s (s.modifyEndpoint e g) := rfl

theorem EndpointsOnly.putBlockSize (s : State) (e : EndpointId) (b : BlockSize) : EndpointsOnly s (s.putBlockSize e b) :=
  (EndpointsOnly.interleave s).trans (EndpointsOnly.modifyEndpoint _ _ _)

/-! ## The card's part (R76, log 16) -/

/-- The state when the card in PORT_SLOT has taken a call: the table as the call leaves it, and the call noted. -/
def State.afterPortCall (s : State) (table : Vector (Option Entry) 8) (call : PeriCall) : State :=
  { s with peripheralTable := table, periCalls := call :: s.periCalls }

/-- What follows the card's part in endpoints only, with its response. -/
theorem EndpointsOnly.afterPortCall {s t : State} {table : Vector (Option Entry) 8} {call : PeriCall}
    (h : EndpointsOnly (s.afterPortCall table call) t) (r : Response) :
    SameMemory s (t.respond r) ∧
      t.respond r = { s with
        peripheralTable := table, endpoints := t.endpoints, agentScript := t.agentScript, response := r,
        periCalls := call :: s.periCalls } := by
  have heq : t = { s.afterPortCall table call with endpoints := t.endpoints, agentScript := t.agentScript } := h
  have hmem : t.userMemory = s.userMemory := by rw [heq]; rfl
  have hresets : t.resetCount = s.resetCount := by rw [heq]; rfl
  exact ⟨SameMemory.of_eq hmem hresets, congrArg (State.respond · r) heq⟩

section
variable {s : State} {ent : Entry} {id token w : Nat} {r : PortRegister}

theorem tableAfterCall_blank (he : s.slot s.params.portSlot = some ent) (hc : ent.card = .blank)
    (next : Nat → Nat → Option Nat) : tableAfterCall s next = some s.peripheralTable := by
  unfold tableAfterCall
  simp only [he, hc]

theorem tableAfterCall_vendor (he : s.slot s.params.portSlot = some ent) (hc : ent.card = .vendor id token)
    (next : Nat → Nat → Option Nat) :
    tableAfterCall s next = (next id token).map fun token' =>
      s.peripheralTable.set s.params.portSlot.val (some { ent with card := .vendor id token' }) := by
  unfold tableAfterCall
  simp only [he, hc]

/-- A card that shows ports is no REGCARD (log 16). -/
theorem Card.ne_reg_of_hostsPorts {c : Card} (h : c.hostsPorts = true) (ram regs : Memory) : c ≠ .reg ram regs := by
  rintro rfl
  exact nomatch h

theorem portOffset_eq (he : s.slot s.params.portSlot = some ent) (w : Nat) : portOffset s w = w % ent.mmioSize := by
  unfold portOffset
  rw [he]
  rfl

theorem State.portAt_eq_some {m : Nat} (hhost : ent.card.hostsPorts = true)
    (hr : portRegister s.params.ports m = some r) : s.portAt s.params.portSlot ent.card m = some r := by
  unfold State.portAt
  rw [if_pos ⟨rfl, hhost⟩, hr]

/-- The card's own part of `mmio_read` in PORT_SLOT leaves the table that `tableAfterRead` says, whatever it answers. -/
theorem cardRegisterRead_port {α : Type} (he : s.slot s.params.portSlot = some ent) (hhost : ent.card.hostsPorts = true)
    (call : PeriCall) (k : State → Res α) :
    andThen (cardRegisterRead s.params.portSlot ent (portOffset s w) (s.note call)) (fun p => k p.1) =
      (tableAfterRead s w).elim (.fault (.neverReturns (.card s.params.portSlot))) fun table =>
        k (s.afterPortCall table call) := by
  unfold tableAfterRead
  cases hc : ent.card with
  | reg ram regs => exact absurd hc (Card.ne_reg_of_hostsPorts hhost ram regs)
  | blank =>
    rw [cardRegisterRead_blank hc, tableAfterCall_blank he hc]
    rfl
  | vendor id token =>
    rw [cardRegisterRead_vendor hc, tableAfterCall_vendor he hc]
    cases Config.cardMmioRead id token (portOffset s w) <;> rfl

/-- The card's own part of `mmio_write` in PORT_SLOT leaves the table that `tableAfterWrite` says. -/
theorem cardRegisterWrite_port {α : Type} (he : s.slot s.params.portSlot = some ent) (hhost : ent.card.hostsPorts = true)
    (v : Byte) (call : PeriCall) (k : State → Res α) :
    andThen (cardRegisterWrite s.params.portSlot ent (portOffset s w) v (s.note call)) k =
      (tableAfterWrite s w v).elim (.fault (.neverReturns (.card s.params.portSlot))) fun table =>
        k (s.afterPortCall table call) := by
  unfold tableAfterWrite
  cases hc : ent.card with
  | reg ram regs => exact absurd hc (Card.ne_reg_of_hostsPorts hhost ram regs)
  | blank =>
    rw [cardRegisterWrite_blank hc, tableAfterCall_blank he hc]
    rfl
  | vendor id token =>
    rw [cardRegisterWrite_vendor hc, tableAfterCall_vendor he hc]
    cases Config.cardMmioWrite id token (portOffset s w) v <;> rfl

theorem andThen_andThen {α β γ : Type} (a : Res α) (f : α → Res β) (g : β → Res γ) :
    andThen (andThen a f) g = andThen a fun x => andThen (f x) g := by
  cases a <;> rfl

/-- A READ where a port register is shown: the card's part, then the read of the register. -/
theorem exec_read_port (hrun : s.runState = .running) (h : ShowsPort s w r) :
    exec (.read (mmioAddress s.params.portSlot w)) s =
      (tableAfterRead s w).elim (.fault (.neverReturns (.card s.params.portSlot))) fun table =>
        andThen (readPort r (s.afterPortCall table (.mmioRead s.params.portSlot (portOffset s w)))) fun p =>
          .next (p.1.respond (.data p.2)) := by
  obtain ⟨hw, ent, he, hhost, hpos, hr⟩ := h
  rw [exec_read_mmio hrun he hw hpos, dataAfter, cardMmioRead, State.portAt_eq_some hhost hr, ← portOffset_eq he,
    andThen_andThen]
  simp only [andThen_andThen]
  exact cardRegisterRead_port he hhost _ fun u => andThen (readPort r u) fun p => .next (p.1.respond (.data p.2))

/-- A WRITE where a port register is shown: the card's part, then the write of the register. -/
theorem exec_write_port (hrun : s.runState = .running) (h : ShowsPort s w r) (v : Byte) :
    exec (.write (mmioAddress s.params.portSlot w) v) s =
      (tableAfterWrite s w v).elim (.fault (.neverReturns (.card s.params.portSlot))) fun table =>
        ackAfter (writePort r v (s.afterPortCall table (.mmioWrite s.params.portSlot (portOffset s w) v))) := by
  obtain ⟨hw, ent, he, hhost, hpos, hr⟩ := h
  rw [exec_write_mmio hrun he hw hpos, ackAfter, cardMmioWrite, State.portAt_eq_some hhost hr, ← portOffset_eq he,
    andThen_andThen]
  exact cardRegisterWrite_port he hhost v _ _

end

/-! ## Reads of the registers (R198, R200) -/

section
variable {s t : State} {e f : EndpointId} {x y : Endpoint}

theorem readPort_status (hx : s.endpoint? e = some x) (hb : x.bgAgent = false) :
    readPort (.status e) s =
      .next (s.interleave.interleave,
        statusByte (cableConnected s e) x.ready x.busy x.sendmode x.isMaster x.isSlave) := by
  have h1 := interleave_at hx hb
  have h2 := interleave_at h1 hb
  unfold readPort readStatus
  simp only [withEndpoint_some _ hx, h1, h2, Option.map_some, Option.getD_some]

theorem pairView_detached (hx : s.endpoint? e = some x) (hr : x.recipient = none) :
    pairView e s = .next (s, ⟨0, false⟩) := by
  unfold pairView
  simp only [withEndpoint_some _ hx, hr]

theorem pairView_peer (hx : s.endpoint? e = some x) (hr : x.recipient = some f) (hy : s.endpoint? f = some y)
    (hb : y.bgAgent = false) : pairView e s = .next (s.interleave, y.blockSize) := by
  unfold pairView
  simp only [withEndpoint_some _ hx, hr, withEndpoint_some _ (interleave_at hy hb)]

theorem readPort_pairLow {b : BlockSize} (h : pairView e s = .next (t, b)) :
    readPort (.pairLow e) s = .next (t, encodePairLow b) := by
  unfold readPort
  simp only [h, andThen_next]

theorem readPort_pairHigh {b : BlockSize} (h : pairView e s = .next (t, b)) :
    readPort (.pairHigh e) s = .next (t, encodePairHigh b) := by
  unfold readPort
  simp only [h, andThen_next]

theorem pairView_endpointsOnly {b : BlockSize} (h : pairView e s = .next (t, b)) : EndpointsOnly s t := by
  obtain ⟨x, -, h⟩ := withEndpoint_eq_next.mp h
  split at h
  · obtain ⟨rfl, -⟩ := Prod.mk.inj (Host.Outcome.next.inj h)
    exact EndpointsOnly.refl _
  · obtain ⟨y, -, h⟩ := withEndpoint_eq_next.mp h
    obtain ⟨rfl, -⟩ := Prod.mk.inj (Host.Outcome.next.inj h)
    exact EndpointsOnly.interleave s

theorem readPort_endpointsOnly {r : PortRegister} {b : Byte} (h : readPort r s = .next (t, b)) : EndpointsOnly s t := by
  cases r with
  | status e =>
    obtain ⟨x, -, h⟩ := withEndpoint_eq_next.mp h
    obtain ⟨rfl, -⟩ := Prod.mk.inj (Host.Outcome.next.inj h)
    exact (EndpointsOnly.interleave s).trans (EndpointsOnly.interleave _)
  | pairLow e | pairHigh e =>
    obtain ⟨⟨u, v⟩, hv, h⟩ := andThen_eq_next.mp h
    obtain ⟨rfl, -⟩ := Prod.mk.inj (Host.Outcome.next.inj h)
    exact pairView_endpointsOnly hv

/-- The bits of the bus-status byte (R99). -/
theorem statusByte_bits (cable ready busy sendmode isMaster isSlave : Bool) :
    let v := statusByte cable ready busy sendmode isMaster isSlave
    v.getLsbD 0 = cable ∧ v.getLsbD 1 = ready ∧ v.getLsbD 2 = busy ∧ v.getLsbD 3 = sendmode ∧ v.getLsbD 4 = isMaster ∧
      v.getLsbD 5 = isSlave ∧ v.getLsbD 6 = false ∧ v.getLsbD 7 = false := by
  decide +revert

/-- CABLE is true exactly where the endpoint and its recipient name each other (R184, log 14). -/
theorem cableConnected_iff (hx : s.endpoint? e = some x) :
    cableConnected s e = true ↔ ∃ f y, x.recipient = some f ∧ s.endpoint? f = some y ∧ y.recipient = some e := by
  have hr : s.recipientOf e = x.recipient := by rw [State.recipientOf, hx, Option.bind_some]
  unfold cableConnected
  rw [hr]
  cases x.recipient with
  | none => simp
  | some f => simp [State.recipientOf, Option.bind_eq_some_iff]

end

/-- A READ at offset `w` of the window of PORT_SLOT answers `v`; nothing changes but what agents write and the card's own
state, and it never returns where the card's call does not. -/
def PortAnswers (s : State) (w : Nat) (v : Byte) : Prop :=
  match tableAfterRead s w with
  | none => exec (.read (mmioAddress s.params.portSlot w)) s = .fault (.neverReturns (.card s.params.portSlot))
  | some table =>
    ∃ t, exec (.read (mmioAddress s.params.portSlot w)) s = .next t ∧ EndpointsKept s t [] ∧ SameMemory s t ∧
      t = { s with
        peripheralTable := table, endpoints := t.endpoints, agentScript := t.agentScript, response := .data v,
        periCalls := .mmioRead s.params.portSlot (portOffset s w) :: s.periCalls }

theorem portAnswers_of_readPort {s : State} {w : Nat} {r : PortRegister} {v : Byte} (hrun : s.runState = .running)
    (hshow : ShowsPort s w r) (hread : ∀ table call, ∃ t, readPort r (s.afterPortCall table call) = .next (t, v)) :
    PortAnswers s w v := by
  have hexec := exec_read_port hrun hshow
  unfold PortAnswers
  split <;> rename_i htable <;> rw [htable] at hexec
  · exact hexec
  · rename_i table
    obtain ⟨t, ht⟩ := hread table (.mmioRead s.params.portSlot (portOffset s w))
    obtain ⟨hmem, hframe⟩ := (readPort_endpointsOnly ht).afterPortCall (.data v)
    exact ⟨t.respond (.data v), by rw [hexec, Option.elim_some, ht, andThen_next], (readPort_frame ht).2, hmem, hframe⟩

theorem portAnswers_of_pairView {s : State} {w : Nat} {e : EndpointId} {b : BlockSize} (hrun : s.runState = .running)
    (hview : ∀ table call, ∃ t, pairView e (s.afterPortCall table call) = .next (t, b)) :
    (ShowsPort s w (.pairLow e) → PortAnswers s w (encodePairLow b)) ∧
      (ShowsPort s w (.pairHigh e) → PortAnswers s w (encodePairHigh b)) := by
  refine ⟨fun hshow => portAnswers_of_readPort hrun hshow fun table call => ?_,
    fun hshow => portAnswers_of_readPort hrun hshow fun table call => ?_⟩ <;> obtain ⟨t, ht⟩ := hview table call
  · exact ⟨t, readPort_pairLow ht⟩
  · exact ⟨t, readPort_pairHigh ht⟩

/-- Settles O14: each register by its read after the card's part. -/
theorem portReads : Obligations.PortReads := by
  intro s w e x ⟨hrun, hx, hb⟩
  refine ⟨fun hshow => ?status, fun hr => ?detached, fun f y hr hy hyb => ?peer⟩
  case status =>
    obtain ⟨hcable, hflags⟩ := statusByte_bits (cableConnected s e) x.ready x.busy x.sendmode x.isMaster x.isSlave
    refine ⟨_, portAnswers_of_readPort hrun hshow fun table call => ?_, by rw [hcable, cableConnected_iff hx], hflags⟩
    exact ⟨_, readPort_status (s := s.afterPortCall table call) hx hb⟩
  case detached =>
    exact portAnswers_of_pairView hrun fun table call =>
      ⟨_, pairView_detached (s := s.afterPortCall table call) hx hr⟩
  case peer =>
    exact portAnswers_of_pairView hrun fun table call =>
      ⟨_, pairView_peer (s := s.afterPortCall table call) hx hr hy hyb⟩

/-! ## Writes of the bus-status byte (R199) -/

section
variable {s : State} {e : EndpointId} {x : Endpoint}

theorem exec_startSend (hrun : s.runState = .running) (e : EndpointId) :
    exec (.startSend e) s = ackAfter (startSend e s) := requireRunning_running hrun _

theorem exec_startRead (hrun : s.runState = .running) (e : EndpointId) :
    exec (.startRead e) s = ackAfter (startRead e s) := requireRunning_running hrun _

theorem writePort_status (hx : s.endpoint? e = some x) (v : Byte) :
    writePort (.status e) v s =
      if v.getLsbD 2 then
        (if v.getLsbD 3 then startSend e (s.putSendmode e (v.getLsbD 3)) else startRead e (s.putSendmode e (v.getLsbD 3)))
      else .next (s.putSendmode e (v.getLsbD 3)) := by
  show writeStatus e v s = _
  unfold writeStatus
  rw [withEndpoint_some _ hx]
  rfl

end

/-- Settles O15: the direction flag is loaded after the card's part, and the transfer runs from there. -/
theorem portStatusWrite : Obligations.PortStatusWrite := by
  intro s w e x v hrun hx hshow
  have hexec := exec_write_port hrun hshow v
  split <;> rename_i htable <;> rw [htable] at hexec
  · exact hexec
  · rename_i table
    intro s1
    have hwrite := writePort_status (s := s.afterPortCall table (.mmioWrite s.params.portSlot (portOffset s w) v)) hx v
    rw [hexec, Option.elim_some, hwrite, apply_ite ackAfter, apply_ite ackAfter, exec_startSend (s := s1) hrun,
      exec_startRead (s := s1) hrun]
    rfl

end Sys2Proof.Machine
end

section
/-! Writes of the block-size pair (R201, R101, R102): the image of the count and the flag in two bytes, and what one WRITE and
two WRITEs load. -/

namespace Sys2Proof.Machine

/-! ## Bits of a byte -/

theorem getLsbD_eq_decide (b : Byte) (i : Nat) : b.getLsbD i = decide (b.toNat / 2 ^ i % 2 = 1) :=
  Nat.testBit_eq_decide_div_mod_eq

/-- A mask that holds the low four bits keeps their number. -/
theorem toNat_and_mod_sixteen (b : Byte) {mask : Byte} (h : mask.setWidth 4 = BitVec.allOnes 4) :
    (b &&& mask).toNat % 16 = b.toNat % 16 := by
  have hlow : (b &&& mask).setWidth 4 = b.setWidth 4 := by rw [BitVec.setWidth_and, h, BitVec.and_allOnes]
  simpa only [BitVec.toNat_setWidth] using congrArg BitVec.toNat hlow

theorem toNat_byte {n : Nat} (h : n < 256) : (BitVec.ofNat 8 n).toNat = n := by
  rw [BitVec.toNat_ofNat, Nat.mod_eq_of_lt h]

/-! ## The image of a count (R101) -/

section
variable (b : BlockSize)

theorem encodePairLow_toNat : (encodePairLow b).toNat = b.len % 256 := by
  unfold encodePairLow
  rw [toNat_byte (by omega), Nat.mod_mod_of_dvd _ (by decide)]

theorem encodePairHigh_toNat :
    (encodePairHigh b).toNat = b.len % 4096 / 256 + 16 * b.cont.toNat + 32 * (decide (b.len = 0)).toNat := by
  have hc := b.cont.toNat_lt
  have hz := (decide (b.len = 0)).toNat_lt
  unfold encodePairHigh
  rw [toNat_byte (by omega)]

theorem encodePairHigh_mod : (encodePairHigh b).toNat % 16 = b.len % 4096 / 256 := by
  rw [encodePairHigh_toNat]
  omega

theorem encodePairHigh_bit_cont : (encodePairHigh b).getLsbD 4 = b.cont := by
  rw [getLsbD_eq_decide, encodePairHigh_toNat]
  cases b.cont
  · simp only [Bool.toNat_false, decide_eq_false_iff_not]
    omega
  · simp only [Bool.toNat_true, decide_eq_true_eq]
    omega

theorem encodePairHigh_bit_zero : (encodePairHigh b).getLsbD 5 = decide (b.len = 0) := by
  have hc := b.cont.toNat_lt
  rw [getLsbD_eq_decide, encodePairHigh_toNat]
  by_cases hz : b.len = 0
  · simp only [hz, decide_true, Bool.toNat_true, decide_eq_true_eq]
    omega
  · simp only [hz, decide_false, Bool.toNat_false, decide_eq_false_iff_not]
    omega

/-! ## One byte over the image (R201) -/

/-- The count that the high byte `v` loads over a count `len`. -/
def lenOfHigh (len : Nat) (v : Byte) : Nat :=
  if v.getLsbD 5 then 0 else if v.toNat % 16 = 0 ∧ len % 256 = 0 then 4096 else v.toNat % 16 * 256 + len % 256

/-- The count that the low byte `v` loads under a count `len`. -/
def lenOfLow (len : Nat) (v : Byte) : Nat :=
  if v ≠ 0 then len % 4096 / 256 * 256 + v.toNat
  else if len = 0 then 0 else if len % 4096 / 256 = 0 then 4096 else len % 4096 / 256 * 256

theorem writePairHigh_eq (v : Byte) : writePairHigh b v = ⟨lenOfHigh b.len v, v.getLsbD 4⟩ := by
  have hflag : (v &&& (0x3F : Byte)).getLsbD 4 = v.getLsbD 4 := by rw [BitVec.getLsbD_and]; exact Bool.and_true _
  have hzero : (v &&& (0x3F : Byte)).getLsbD 5 = v.getLsbD 5 := by rw [BitVec.getLsbD_and]; exact Bool.and_true _
  have hlen : (v &&& (0x3F : Byte)).toNat % 16 = v.toNat % 16 := toNat_and_mod_sixteen v (by decide)
  unfold writePairHigh decodePair lenOfHigh
  simp only [hflag, hzero, hlen, encodePairLow_toNat, Nat.add_eq_zero_iff, Nat.mul_eq_zero, OfNat.ofNat_ne_zero, or_false]

theorem writePairLow_eq (v : Byte) : writePairLow b v = ⟨lenOfLow b.len v, b.cont⟩ := by
  show decodePair v (if v = 0 then encodePairHigh b else encodePairHigh b &&& 0xDF) = _
  unfold lenOfLow
  by_cases hv : v = 0
  · subst hv
    have hbyte : (0 : Byte).toNat = 0 := rfl
    rw [if_pos rfl, if_neg (not_not.mpr rfl), decodePair]
    simp only [encodePairHigh_bit_zero, encodePairHigh_bit_cont, encodePairHigh_mod, decide_eq_true_eq]
    rw [hbyte, Nat.add_zero]
    congr 1
    split_ifs <;> omega
  · have hflag : (encodePairHigh b &&& (0xDF : Byte)).getLsbD 4 = b.cont := by
      rw [BitVec.getLsbD_and, encodePairHigh_bit_cont]; exact Bool.and_true _
    have hzero : (encodePairHigh b &&& (0xDF : Byte)).getLsbD 5 = false := by
      rw [BitVec.getLsbD_and]; exact Bool.and_false _
    have hlen : (encodePairHigh b &&& (0xDF : Byte)).toNat % 16 = b.len % 4096 / 256 :=
      (toNat_and_mod_sixteen _ (by decide)).trans (encodePairHigh_mod b)
    have hpos : v.toNat ≠ 0 := fun h => hv (BitVec.eq_of_toNat_eq h)
    rw [if_neg hv, if_pos hv, decodePair]
    simp only [hflag, hzero, hlen, Bool.false_eq_true, if_false]
    rw [if_neg (by omega)]

end

/-! ## Two bytes load any count (R201, R102) -/

section
variable {n : Nat}

/-- The high byte of a count with its flag. -/
theorem highByte_toNat (hn : n ≤ 4095) (c : Bool) :
    (BitVec.ofNat 8 (n / 256 + 16 * c.toNat)).toNat = n / 256 + 16 * c.toNat := by
  have hc := c.toNat_lt
  exact toNat_byte (by omega)

theorem highByte_bit_cont (hn : n ≤ 4095) (c : Bool) : (BitVec.ofNat 8 (n / 256 + 16 * c.toNat)).getLsbD 4 = c := by
  rw [getLsbD_eq_decide, highByte_toNat hn]
  cases c
  · simp only [Bool.toNat_false, decide_eq_false_iff_not]
    omega
  · simp only [Bool.toNat_true, decide_eq_true_eq]
    omega

theorem lenOfHigh_highByte (hn : n ≤ 4095) (c : Bool) (len : Nat) :
    lenOfHigh len (BitVec.ofNat 8 (n / 256 + 16 * c.toNat)) =
      if n / 256 = 0 ∧ len % 256 = 0 then 4096 else n / 256 * 256 + len % 256 := by
  have hc := c.toNat_lt
  have hzero : (BitVec.ofNat 8 (n / 256 + 16 * c.toNat)).getLsbD 5 = false := by
    rw [getLsbD_eq_decide, highByte_toNat hn, decide_eq_false_iff_not]
    omega
  have hlen : (n / 256 + 16 * c.toNat) % 16 = n / 256 := by omega
  unfold lenOfHigh
  rw [hzero, highByte_toNat hn, hlen, if_neg Bool.false_ne_true]

theorem lenOfLow_ofNat {m : Nat} (hm : m < 256) (len : Nat) :
    lenOfLow len (BitVec.ofNat 8 m) =
      if m ≠ 0 then len % 4096 / 256 * 256 + m
      else if len = 0 then 0 else if len % 4096 / 256 = 0 then 4096 else len % 4096 / 256 * 256 := by
  have hzero : BitVec.ofNat 8 m ≠ 0 ↔ m ≠ 0 := by
    rw [ne_eq, ← BitVec.toNat_inj, toNat_byte hm]
    rfl
  unfold lenOfLow
  simp only [hzero, toNat_byte hm]

theorem lenOfLow_mod (len : Nat) (v : Byte) : lenOfLow len v % 256 = v.toNat := by
  have hv := v.isLt
  unfold lenOfLow
  by_cases h : v = 0
  · subst h
    simp only [ne_eq, not_true_eq_false, if_false]
    show _ = 0
    split_ifs <;> omega
  · rw [if_pos h]
    omega

theorem writeHigh_writeLow (hpos : 1 ≤ n) (hn : n ≤ 4095) (c : Bool) (b : BlockSize) :
    writePairHigh (writePairLow b (BitVec.ofNat 8 (n % 256))) (BitVec.ofNat 8 (n / 256 + 16 * c.toNat)) = ⟨n, c⟩ := by
  rw [writePairLow_eq, writePairHigh_eq, highByte_bit_cont hn, lenOfHigh_highByte hn, lenOfLow_mod, toNat_byte (by omega),
    if_neg (by omega), Nat.div_add_mod']

theorem writeLow_writeHigh (hpos : 1 ≤ n) (hn : n ≤ 4095) (c : Bool) (b : BlockSize) :
    writePairLow (writePairHigh b (BitVec.ofNat 8 (n / 256 + 16 * c.toNat))) (BitVec.ofNat 8 (n % 256)) = ⟨n, c⟩ := by
  rw [writePairHigh_eq, writePairLow_eq, highByte_bit_cont hn, lenOfHigh_highByte hn, lenOfLow_ofNat (by omega)]
  congr 1
  dsimp only
  split_ifs <;> omega

/-- A high byte without length bits over a low byte 0 loads 4096 (R102). -/
theorem writeHigh_writeLow_zero (c : Bool) (b : BlockSize) :
    writePairHigh (writePairLow b 0x00) (if c then 0x10 else 0x00) = ⟨4096, c⟩ := by
  rw [writePairLow_eq, writePairHigh_eq, lenOfHigh, lenOfLow_mod]
  cases c <;> rfl

end

/-! ## One WRITE -/

section
variable {s t : State} {w : Nat} {v : Byte} {e : EndpointId} {x : Endpoint}

theorem rewriteBlockSize_at (hx : s.endpoint? e = some x) (hb : x.bgAgent = false) (g : BlockSize → BlockSize) :
    rewriteBlockSize e g s = .next (s.interleave.putBlockSize e (g x.blockSize)) := by
  unfold rewriteBlockSize
  rw [withEndpoint_some _ (interleave_at hx hb)]

/-- The two atomic accesses of a WRITE of the pair change their endpoint only, but for what agents write (R201, R80). -/
theorem putBlockSize_frame (s : State) (e : EndpointId) (b : BlockSize) :
    EndpointsKept s (s.interleave.putBlockSize e b) [e] ∧ EndpointsOnly s (s.interleave.putBlockSize e b) :=
  ⟨(EndpointsKept.interleave s [e]).trans (EndpointsKept.putBlockSize _ e b),
    (EndpointsOnly.interleave s).trans (EndpointsOnly.putBlockSize _ e b)⟩

/-- A WRITE of a register of the pair that loads `b` by two atomic accesses on the endpoint. -/
theorem loadsPair_of_writePort {r : PortRegister} {b : BlockSize} (hlive : Live s e x) (hshow : ShowsPort s w r)
    (hwrite : ∀ table call,
      writePort r v (s.afterPortCall table call) = .next ((s.afterPortCall table call).interleave.putBlockSize e b)) :
    LoadsPair s w v e { x with blockSize := b } := by
  obtain ⟨hrun, hx, hb⟩ := hlive
  have hexec := exec_write_port hrun hshow v
  unfold LoadsPair
  split <;> rename_i htable <;> rw [htable] at hexec
  · exact hexec
  · rename_i table
    have hx' : (s.afterPortCall table (.mmioWrite s.params.portSlot (portOffset s w) v)).endpoint? e = some x := hx
    obtain ⟨hkept, honly⟩ :=
      putBlockSize_frame (s.afterPortCall table (.mmioWrite s.params.portSlot (portOffset s w) v)) e b
    obtain ⟨hmem, hframe⟩ := honly.afterPortCall .ack
    rw [Option.elim_some, hwrite] at hexec
    exact ⟨_, hexec, putBlockSize_at (interleave_at hx' hb) hb b, hkept, hmem, hframe⟩

theorem loadsPair_high (hlive : Live s e x) (hshow : ShowsPort s w (.pairHigh e)) (v : Byte) :
    LoadsPair s w v e { x with blockSize := writePairHigh x.blockSize v } :=
  loadsPair_of_writePort hlive hshow fun table call =>
    rewriteBlockSize_at (s := s.afterPortCall table call) hlive.2.1 hlive.2.2 fun b => writePairHigh b v

theorem loadsPair_low (hlive : Live s e x) (hshow : ShowsPort s w (.pairLow e)) (v : Byte) :
    LoadsPair s w v e { x with blockSize := writePairLow x.blockSize v } :=
  loadsPair_of_writePort hlive hshow fun table call =>
    rewriteBlockSize_at (s := s.afterPortCall table call) hlive.2.1 hlive.2.2 fun b => writePairLow b v

/-! ## The port after a WRITE -/

theorem SameTable.slot_of {k : Slot} {ent : Entry} (h : SameTable s t) (he : t.slot k = some ent) :
    ∃ ent0, s.slot k = some ent0 ∧ ent0.declared = ent.declared := by
  have hk := h k
  rw [he, Option.map_some] at hk
  exact Option.map_eq_some_iff.mp hk.symm

theorem SameTable.symm (h : SameTable s t) : SameTable t s := fun k => (h k).symm

/-- Every kind of card but the REGCARD shows ports (log 16). -/
theorem Card.hostsPorts_eq (c : Card) : c.hostsPorts = decide (c.kind ≠ .regCard) := by
  cases c <;> rfl

theorem ShowsPort.of_kept {r : PortRegister} (hk : Kept s t) (h : ShowsPort s w r) : ShowsPort t w r := by
  obtain ⟨hw, ent, he, hhost, hpos, hr⟩ := h
  obtain ⟨ent', he', hd⟩ := hk.table.symm.slot_of he
  obtain ⟨hkind, -, hsize, -⟩ : ent'.card.kind = ent.card.kind ∧ _ ∧ ent'.mmioSize = ent.mmioSize ∧ _ := by
    simpa only [Entry.declared, Prod.mk.injEq] using hd
  refine ⟨hw, ent', ?_, ?_, hsize ▸ hpos, ?_⟩
  · rw [hk.params, he']
  · rw [Card.hostsPorts_eq, hkind, ← Card.hostsPorts_eq, hhost]
  · rw [hk.params, hsize, hr]

theorem PortCardReturns.of_kept (hk : Kept s t) (h : PortCardReturns s) : PortCardReturns t := by
  intro ent id token he hc
  rw [hk.params] at he
  obtain ⟨ent0, he0, hd⟩ := hk.table.slot_of he
  have hkind : ent0.card.kind = .vendor id := by
    rw [(Prod.mk.inj hd).1, hc]
    rfl
  cases hc0 : ent0.card with
  | reg ram regs => exact nomatch hc0 ▸ hkind
  | blank => exact nomatch hc0 ▸ hkind
  | vendor id0 token0 =>
    rw [hc0] at hkind
    obtain rfl : id0 = id := Peripheral.vendor.inj hkind
    exact h ent0 id0 token0 he0 hc0

theorem tableAfterWrite_eq_some (h : PortCardReturns s) (w : Nat) (v : Byte) :
    ∃ table, tableAfterWrite s w v = some table := by
  unfold tableAfterWrite tableAfterCall
  split
  · exact ⟨_, rfl⟩
  · rename_i ent he
    split
    · exact ⟨_, rfl⟩
    · exact ⟨_, rfl⟩
    · rename_i id token hc
      obtain ⟨token', htoken⟩ := Option.isSome_iff_exists.mp (h ent id token he hc token (portOffset s w) v)
      exact ⟨_, congrArg (Option.map _) htoken⟩

/-- A WRITE in an MMIO window keeps the structure of the machine. -/
theorem exec_write_mmio_kept {j : Slot} (h : exec (.write (mmioAddress j w) v) s = .next t) : Kept s t := by
  obtain ⟨a, ha, -⟩ | hk := execWrite_eq_next ((exec_write _ v s).symm.trans h)
  · unfold mmioAddress at ha
    omega
  · exact hk

/-- Where the card's calls return, the WRITE is answered, and the port is still there after it. -/
theorem LoadsPair.next {y : Endpoint} (h : LoadsPair s w v e y) (hret : PortCardReturns s) :
    ∃ t, exec (.write (mmioAddress s.params.portSlot w) v) s = .next t ∧ t.endpoint? e = some y ∧
      EndpointsKept s t [e] ∧ SameMemory s t ∧ Kept s t := by
  obtain ⟨table, htable⟩ := tableAfterWrite_eq_some hret w v
  unfold LoadsPair at h
  rw [htable] at h
  obtain ⟨t, ht, hy, hkept, hmem, -⟩ := h
  exact ⟨t, ht, hy, hkept, hmem, exec_write_mmio_kept ht⟩

/-- Two WRITEs of the pair, one after the other. -/
theorem loadsPair_twice {w' : Nat} {v' : Byte} {b c : BlockSize} (hlive : Live s e x) (hret : PortCardReturns s)
    (hfirst : LoadsPair s w v e { x with blockSize := b })
    (hsecond : ∀ t, Kept s t → Live t e { x with blockSize := b } → LoadsPair t w' v' e { x with blockSize := c }) :
    ∃ t u, exec (.write (mmioAddress s.params.portSlot w) v) s = .next t ∧
      exec (.write (mmioAddress s.params.portSlot w') v') t = .next u ∧
      u.endpoint? e = some { x with blockSize := c } ∧ EndpointsKept s u [e] ∧ SameMemory s u := by
  obtain ⟨hrun, -, hb⟩ := hlive
  obtain ⟨t, ht, hy, hkept, hmem, hk⟩ := hfirst.next hret
  have hlive' : Live t e { x with blockSize := b } := ⟨hk.runState.trans hrun, hy, hb⟩
  obtain ⟨u, hu, hz, hkept', hmem', -⟩ := (hsecond t hk hlive').next (hret.of_kept hk)
  rw [hk.params] at hu
  exact ⟨t, u, ht, hu, hz, hkept.trans hkept', fun a => (hmem' a).trans (hmem a)⟩

end

/-- Settles O17: each WRITE by the byte it puts over the image, the pairs of WRITEs by the two orders. -/
theorem portPairWrite : Obligations.PortPairWrite := by
  refine ⟨fun s w e x v hlive _ => ⟨fun hshow => ?high, fun hshow => ?low⟩,
    fun s low high e x c hlive hret hlow hhigh _ => ?pairs⟩
  case high =>
    have h := loadsPair_high hlive hshow v
    rwa [writePairHigh_eq] at h
  case low =>
    have h := loadsPair_low hlive hshow v
    rwa [writePairLow_eq] at h
  case pairs =>
    have lowThenHigh := fun (lo hi : Byte) => loadsPair_twice hlive hret (loadsPair_low hlive hlow lo) fun t hk hlive' =>
      loadsPair_high hlive' (hhigh.of_kept hk) hi
    have highThenLow := fun (hi lo : Byte) => loadsPair_twice hlive hret (loadsPair_high hlive hhigh hi) fun t hk hlive' =>
      loadsPair_low hlive' (hlow.of_kept hk) lo
    refine ⟨fun n hpos hn => ⟨?_, ?_⟩, ?_⟩
    · exact writeHigh_writeLow hpos hn c x.blockSize ▸ lowThenHigh _ _
    · exact writeLow_writeHigh hpos hn c x.blockSize ▸ highThenLow _ _
    · exact writeHigh_writeLow_zero c x.blockSize ▸ lowThenHigh _ _

end Sys2Proof.Machine
end

section
/-! The address words (R93, R95): which row a word matches, and the target of its row. A row MMIOj or RAMk is written here
once for every slot, with the word whose free bits are given. -/

namespace Sys2Proof.Machine

/-! ## The rows of R95, by slot -/

/-- The operation of the row MMIOj. -/
def mmioRow (j : Slot) (a : BitVec 17) : Instr :=
  match j with
  | 0 => .addrMmio0 a
  | 1 => .addrMmio1 a
  | 2 => .addrMmio2 a
  | 3 => .addrMmio3 a
  | 4 => .addrMmio4 a
  | 5 => .addrMmio5 a
  | 6 => .addrMmio6 a
  | 7 => .addrMmio7 a

/-- The operation of the row RAMk, for the slot after `k`: slot 0 has no row. -/
def ramRow (k : Fin 7) (a : BitVec 20) : Instr :=
  match k with
  | 0 => .addrRam1 a
  | 1 => .addrRam2 a
  | 2 => .addrRam3 a
  | 3 => .addrRam4 a
  | 4 => .addrRam5 a
  | 5 => .addrRam6 a
  | 6 => .addrRam7 a

/-- The address word of the row MMIOj. -/
def mmioWord (j : Slot) (a : BitVec 17) : AddrWord := BitVec.ofNat 15 (0x7FFF - j.val) ++ a

/-- The address word of the row RAMk, for the slot after `k`. -/
def ramWord (k : Fin 7) (a : BitVec 20) : AddrWord := BitVec.ofNat 12 (0xFFE - k.val) ++ a

theorem encode_mmioRow (j : Slot) (a : BitVec 17) : encode (mmioRow j a) = .addr (mmioWord j a) := by
  fin_cases j <;> rfl

theorem encode_ramRow (k : Fin 7) (a : BitVec 20) : encode (ramRow k a) = .addr (ramWord k a) := by
  fin_cases k <;> rfl

theorem exec_mmioRow (j : Slot) (a : BitVec 17) (s : State) :
    exec (mmioRow j a) s = answerTarget (mmioTarget j a) s := by
  fin_cases j <;> rfl

theorem exec_ramRow (k : Fin 7) (a : BitVec 20) (s : State) :
    exec (ramRow k a) s = answerTarget (ramTarget k.succ a) s := by
  fin_cases k <;> rfl

/-! ## The row of a word -/

section
variable {m n : Nat} (x : BitVec m) (a : BitVec n)

/-- The bits of a row above the free ones are bits of its fixed part. -/
theorem extractLsb'_append_high (i l : Nat) : (x ++ a).extractLsb' (n + i) l = x.extractLsb' i l := by
  rw [BitVec.extractLsb'_append_eq_of_le (by omega), Nat.add_sub_cancel_left]

theorem extractLsb'_extractLsb' {w i l m : Nat} (A : BitVec w) (start : Nat) (h : i + l ≤ m) :
    (A.extractLsb' start m).extractLsb' i l = A.extractLsb' (start + i) l := by
  refine BitVec.eq_of_getLsbD_eq fun j hj => ?_
  have hin : i + j < m := by omega
  simp only [BitVec.getLsbD_extractLsb', hj, hin, decide_true, Bool.true_and, Nat.add_assoc]

theorem toNat_append_eq_add : (x ++ a).toNat = x.toNat * 2 ^ n + a.toNat := by
  rw [BitVec.toNat_append, ← Nat.shiftLeft_add_eq_or_of_lt a.isLt, Nat.shiftLeft_eq]

end

theorem decodeAddrWord_userWord (a : BitVec 23) : decodeAddrWord (0#9 ++ a) = .ok (.addrUser a) := by
  unfold decodeAddrWord
  rw [BitVec.extractLsb'_append_eq_left, BitVec.extractLsb'_append_eq_right]
  rfl

theorem decodeAddrWord_mmioWord (j : Slot) (a : BitVec 17) : decodeAddrWord (mmioWord j a) = .ok (mmioRow j a) := by
  have huser : (mmioWord j a).extractLsb' 23 9 = (BitVec.ofNat 15 (0x7FFF - j.val)).extractLsb' 6 9 :=
    extractLsb'_append_high _ a 6 9
  have hrow : (mmioWord j a).extractLsb' 17 15 = BitVec.ofNat 15 (0x7FFF - j.val) := BitVec.extractLsb'_append_eq_left
  have hfree : (mmioWord j a).extractLsb' 0 17 = a := BitVec.extractLsb'_append_eq_right
  unfold decodeAddrWord
  rw [huser, hrow, hfree]
  fin_cases j <;> rfl

theorem decodeAddrWord_ramWord (k : Fin 7) (a : BitVec 20) : decodeAddrWord (ramWord k a) = .ok (ramRow k a) := by
  have huser : (ramWord k a).extractLsb' 23 9 = (BitVec.ofNat 12 (0xFFE - k.val)).extractLsb' 3 9 :=
    extractLsb'_append_high _ a 3 9
  have hrow : (ramWord k a).extractLsb' 20 12 = BitVec.ofNat 12 (0xFFE - k.val) := BitVec.extractLsb'_append_eq_left
  have hfree : (ramWord k a).extractLsb' 0 20 = a := BitVec.extractLsb'_append_eq_right
  have hmmio : ∀ x : BitVec 15, x.extractLsb' 3 12 = 0xFFF → (ramWord k a).extractLsb' 17 15 ≠ x := by
    rintro x hx rfl
    rw [extractLsb'_extractLsb' _ _ (by omega), hrow] at hx
    revert hx
    fin_cases k <;> decide
  unfold decodeAddrWord
  rw [huser, hrow, hfree]
  simp (disch := decide) only [hmmio, if_false]
  fin_cases k <;> rfl

/-- A word whose upper nine bits are neither all clear nor all set matches no row. -/
theorem decodeAddrWord_unmapped {A : AddrWord} (hclear : A.extractLsb' 23 9 ≠ 0#9) (hset : A.extractLsb' 23 9 ≠ 0x1FF#9) :
    decodeAddrWord A = .error (.unmappedWord A) := by
  have hmmio : ∀ x : BitVec 15, x.extractLsb' 6 9 = 0x1FF → A.extractLsb' 17 15 ≠ x := by
    rintro x hx rfl
    rw [extractLsb'_extractLsb' _ _ (by omega)] at hx
    exact hset hx
  have hram : ∀ x : BitVec 12, x.extractLsb' 3 9 = 0x1FF → A.extractLsb' 20 12 ≠ x := by
    rintro x hx rfl
    rw [extractLsb'_extractLsb' _ _ (by omega)] at hx
    exact hset hx
  unfold decodeAddrWord
  refine (if_neg hclear).trans ?_
  simp (disch := decide) only [hmmio, hram, if_false]

/-- What the decoder makes of an address word: the row that it matches (R95), and no row outside the windows (R62). -/
inductive AddrDecoded : AddrWord → Except DecodeError Instr → Prop
  | user (a : BitVec 23) : AddrDecoded (0#9 ++ a) (.ok (.addrUser a))
  | mmio (j : Slot) (a : BitVec 17) : AddrDecoded (mmioWord j a) (.ok (mmioRow j a))
  | ram (k : Fin 7) (a : BitVec 20) : AddrDecoded (ramWord k a) (.ok (ramRow k a))
  | unmapped (A : AddrWord) (h : 8388608 ≤ A.toInt ∨ A.toInt ≤ -8388609) : AddrDecoded A (.error (.unmappedWord A))

theorem exists_mmioWord {A : AddrWord} (h : A.extractLsb' 20 12 = 0xFFF#12) : ∃ j a, A = mmioWord j a := by
  have hhigh : 0x7FF8 ≤ (A.extractLsb' 17 15).toNat := by
    have h' := congrArg BitVec.toNat h
    simp only [BitVec.extractLsb'_toNat, Nat.shiftRight_eq_div_pow, BitVec.toNat_ofNat] at h' ⊢
    omega
  have hlow := (A.extractLsb' 17 15).isLt
  refine ⟨⟨0x7FFF - (A.extractLsb' 17 15).toNat, by omega⟩, A.extractLsb' 0 17, ?_⟩
  rw [mmioWord, Nat.sub_sub_self (by omega), BitVec.ofNat_toNat, BitVec.setWidth_eq, BitVec.extractLsb'_append_extractLsb']

theorem exists_ramWord {A : AddrWord} (hset : A.extractLsb' 23 9 = 0x1FF#9) (h : A.extractLsb' 20 12 ≠ 0xFFF#12) :
    ∃ k a, A = ramWord k a := by
  have hhigh : 0xFF8 ≤ (A.extractLsb' 20 12).toNat := by
    have h' := congrArg BitVec.toNat hset
    simp only [BitVec.extractLsb'_toNat, Nat.shiftRight_eq_div_pow, BitVec.toNat_ofNat] at h' ⊢
    omega
  have hlow : (A.extractLsb' 20 12).toNat ≤ 0xFFE := by
    have := (A.extractLsb' 20 12).isLt
    have hne : (A.extractLsb' 20 12).toNat ≠ 0xFFF := fun hsame => h (BitVec.eq_of_toNat_eq hsame)
    omega
  refine ⟨⟨0xFFE - (A.extractLsb' 20 12).toNat, by omega⟩, A.extractLsb' 0 20, ?_⟩
  rw [ramWord, Nat.sub_sub_self hlow, BitVec.ofNat_toNat, BitVec.setWidth_eq, BitVec.extractLsb'_append_extractLsb']

/-- Every word is under one case of the decoder, by its upper bits. -/
theorem addrDecoded_decodeAddrWord (A : AddrWord) : AddrDecoded A (decodeAddrWord A) := by
  by_cases hclear : A.extractLsb' 23 9 = 0#9
  · have hA : A = 0#9 ++ A.extractLsb' 0 23 := by
      rw [show 0#9 = A.extractLsb' 23 9 from hclear.symm, BitVec.extractLsb'_append_extractLsb']
    rw [hA, decodeAddrWord_userWord]
    exact .user _
  by_cases hset : A.extractLsb' 23 9 = 0x1FF#9
  · by_cases hmmio : A.extractLsb' 20 12 = 0xFFF#12
    · obtain ⟨j, a, rfl⟩ := exists_mmioWord hmmio
      rw [decodeAddrWord_mmioWord]
      exact .mmio j a
    · obtain ⟨k, a, rfl⟩ := exists_ramWord hset hmmio
      rw [decodeAddrWord_ramWord]
      exact .ram k a
  · rw [decodeAddrWord_unmapped hclear hset]
    refine .unmapped A ?_
    have hlt := A.isLt
    simp only [BitVec.toNat_eq, BitVec.extractLsb'_toNat, Nat.shiftRight_eq_div_pow, BitVec.toNat_ofNat] at hclear hset
    rw [BitVec.toInt_eq_toNat_cond]
    split <;> omega

/-! ## The target of a word -/

theorem toInt_userWord (a : BitVec 23) : (0#9 ++ a).toInt = a.toNat := by
  have ha := a.isLt
  rw [BitVec.toInt_eq_toNat_cond, toNat_append_eq_add, BitVec.toNat_ofNat]
  split <;> omega

theorem toInt_mmioWord (j : Slot) (a : BitVec 17) : (mmioWord j a).toInt = mmioAddress j (~~~a).toNat := by
  have ha := a.isLt
  have hj := j.isLt
  rw [BitVec.toInt_eq_toNat_cond, mmioWord, toNat_append_eq_add, BitVec.toNat_ofNat, BitVec.toNat_not, mmioAddress]
  split <;> omega

theorem toInt_ramWord (k : Fin 7) (a : BitVec 20) : (ramWord k a).toInt = ramAddress k.succ (~~~a).toNat := by
  have ha := a.isLt
  have hk := k.isLt
  rw [BitVec.toInt_eq_toNat_cond, ramWord, toNat_append_eq_add, BitVec.toNat_ofNat, BitVec.toNat_not, ramAddress,
    Fin.val_succ]
  split <;> omega

theorem decodeAddress_userWord (memsize : Nat) (a : BitVec 23) :
    decodeAddress memsize (0#9 ++ a).toInt = userTarget memsize a := by
  rw [toInt_userWord, userTarget]
  split
  case isTrue h => exact decodeAddress_user h
  case isFalse h =>
    have habove : (memsize : Int) ≤ a.toNat := by omega
    exact decodeAddress_noMapping (.inl habove)

theorem decodeAddress_mmioWord (memsize : Nat) (j : Slot) (a : BitVec 17) :
    decodeAddress memsize (mmioWord j a).toInt = mmioTarget j a := by
  rw [toInt_mmioWord]
  exact decodeAddress_mmioAddress memsize j (~~~a).isLt

theorem decodeAddress_ramWord (memsize : Nat) (k : Fin 7) (a : BitVec 20) :
    decodeAddress memsize (ramWord k a).toInt = ramTarget k.succ a := by
  rw [toInt_ramWord]
  exact decodeAddress_ramAddress memsize k.succ_ne_zero (~~~a).isLt

theorem present_of_decode {r : Request} {i : Instr} (h : decode r = .ok i) (s : State) : present r s = exec i s := by
  simp only [present, h]

theorem present_of_reject {r : Request} {why : DecodeError} (h : decode r = .error why) (s : State) :
    present r s = rejectRequest r why s := by
  simp only [present, h]

/-- Settles O5: the row of a word by its upper bits, then the address of the row's word. -/
theorem addressRowsAgree : Obligations.AddressRowsAgree := by
  intro A s
  have hsize : s.memsize ≤ 8388608 := Nat.le_of_lt_succ s.params.memsize.isLt
  suffices h : present (.addr A) s = answerTarget (decodeAddress s.memsize A.toInt) s from h
  have hrow : AddrDecoded A (decode (.addr A)) := addrDecoded_decodeAddrWord A
  generalize hdecode : decode (.addr A) = d at hrow
  cases hrow with
  | user a => rw [present_of_decode hdecode, decodeAddress_userWord]; rfl
  | mmio j a => rw [present_of_decode hdecode, decodeAddress_mmioWord, exec_mmioRow]
  | ram k a => rw [present_of_decode hdecode, decodeAddress_ramWord, exec_ramRow]
  | unmapped A h =>
    rw [present_of_reject hdecode, decodeAddress_noMapping (h.imp_left fun habove => by omega)]
    rfl

/-! ## The rows as operations (R95, log 6) -/

theorem exec_mmioRow_target (j : Slot) (a : BitVec 17) (s : State) :
    exec (mmioRow j a) s = .next { s with response := .target (.mmio j (131071 - a.toNat)) } := by
  rw [exec_mmioRow, mmioTarget, BitVec.toNat_not]
  rfl

theorem exec_ramRow_target (k : Fin 7) (a : BitVec 20) (s : State) :
    exec (ramRow k a) s = .next { s with response := .target (.ram k.succ (1048575 - a.toNat)) } := by
  rw [exec_ramRow, ramTarget, BitVec.toNat_not]
  rfl

/-- Settles O6: each row by its slot. -/
theorem addressRowsComplete : Obligations.AddressRowsComplete := fun s =>
  ⟨fun _ => rfl,
    fun a => ⟨exec_mmioRow_target 0 a s, exec_mmioRow_target 1 a s, exec_mmioRow_target 2 a s, exec_mmioRow_target 3 a s,
      exec_mmioRow_target 4 a s, exec_mmioRow_target 5 a s, exec_mmioRow_target 6 a s, exec_mmioRow_target 7 a s⟩,
    fun a => ⟨exec_ramRow_target 0 a s, exec_ramRow_target 1 a s, exec_ramRow_target 2 a s, exec_ramRow_target 3 a s,
      exec_ramRow_target 4 a s, exec_ramRow_target 5 a s, exec_ramRow_target 6 a s⟩⟩

end Sys2Proof.Machine
end

section
/-! The commands (R103, R104, R253): a command operation is its keyword with an argument and a tail, and its request, its check
and its rule are the keyword's. -/

namespace Sys2Proof.Machine

/-! ## A command by its keyword -/

section
variable {k : Keyword} {arg : Bytes} (hplain : k ∈ plainKeywords → arg = []) (e : EndpointId) (tail : Tail)
include hplain

theorem encode_keywordInstr : encode (k.instr e arg tail) = .cmd e (commandPayload k arg tail) := by
  cases k
  case openr | openw | opena | write => rfl
  all_goals rw [hplain (by decide)]; rfl

theorem check_keywordInstr : (k.instr e arg tail).check = checkCommand k.bytes.length arg tail := by
  cases k
  case openr | openw | opena | write => rfl
  all_goals rw [hplain (by decide)]; rfl

theorem exec_keywordInstr (s : State) :
    exec (k.instr e arg tail) s =
      commandTransfer (fun text status d => runKeyword (text.drop k.bytes.length) status d k) e
        (commandPayload k arg tail) s := by
  cases k
  case openr | openw | opena | write => rfl
  all_goals rw [hplain (by decide)]; rfl

end

/-- An operation whose request is a command payload is the operation of a keyword. -/
theorem keywordInstr_of_encode {i : Instr} {e : EndpointId} {payload : Bytes} (h : encode i = .cmd e payload) :
    ∃ k arg tail, (k ∈ plainKeywords → arg = []) ∧ i = k.instr e arg tail ∧ payload = commandPayload k arg tail := by
  cases i with
  | cmdDevrst _ tail => cases h; exact ⟨.devrst, [], tail, fun _ => rfl, rfl, rfl⟩
  | cmdDevstu _ tail => cases h; exact ⟨.devstu, [], tail, fun _ => rfl, rfl, rfl⟩
  | cmdDevtyp _ tail => cases h; exact ⟨.devtyp, [], tail, fun _ => rfl, rfl, rfl⟩
  | cmdDevnam _ tail => cases h; exact ⟨.devnam, [], tail, fun _ => rfl, rfl, rfl⟩
  | cmdOpenr _ arg tail => cases h; exact ⟨.openr, arg, tail, fun hk => absurd hk (by decide), rfl, rfl⟩
  | cmdOpenw _ arg tail => cases h; exact ⟨.openw, arg, tail, fun hk => absurd hk (by decide), rfl, rfl⟩
  | cmdOpena _ arg tail => cases h; exact ⟨.opena, arg, tail, fun hk => absurd hk (by decide), rfl, rfl⟩
  | cmdRead _ tail => cases h; exact ⟨.read, [], tail, fun _ => rfl, rfl, rfl⟩
  | cmdWrite _ arg tail => cases h; exact ⟨.write, arg, tail, fun hk => absurd hk (by decide), rfl, rfl⟩
  | cmdClose _ tail => cases h; exact ⟨.close, [], tail, fun _ => rfl, rfl, rfl⟩
  | cmdDelete _ tail => cases h; exact ⟨.delete, [], tail, fun _ => rfl, rfl, rfl⟩
  | cmdMkdir _ tail => cases h; exact ⟨.mkdir, [], tail, fun _ => rfl, rfl, rfl⟩
  | cmdMkfile _ tail => cases h; exact ⟨.mkfile, [], tail, fun _ => rfl, rfl, rfl⟩
  | cmdTouch _ tail => cases h; exact ⟨.touch, [], tail, fun _ => rfl, rfl, rfl⟩
  | cmdListfiles _ tail => cases h; exact ⟨.listfiles, [], tail, fun _ => rfl, rfl, rfl⟩
  | cmdGetlen _ tail => cases h; exact ⟨.getlen, [], tail, fun _ => rfl, rfl, rfl⟩
  | _ => cases h

/-- The argument and the payload of a well-formed command (R98, R103). -/
theorem wellFormed_keywordInstr {k : Keyword} {arg : Bytes} (hplain : k ∈ plainKeywords → arg = []) {e : EndpointId}
    {tail : Tail} (hwf : (k.instr e arg tail).WellFormed) :
    Config.eob ∉ arg ∧ (commandPayload k arg tail).length ≤ Config.block := by
  have hcheck : checkCommand k.bytes.length arg tail = none := (check_keywordInstr hplain e tail).symm.trans hwf
  simpa only [commandPayload, List.length_append] using checkCommand_eq_none.mp hcheck

/-! ## A command text and its keyword (R253) -/

/-- A selected keyword stands at the beginning of its text, alone if it takes no argument. -/
theorem selectKeyword_eq_some {text : Bytes} {k : Keyword} {arg : Bytes} (h : selectKeyword text = some (k, arg)) :
    (k ∈ plainKeywords → arg = []) ∧ text = k.bytes ++ arg := by
  unfold selectKeyword at h
  split at h
  case h_1 k' hfind =>
    cases h
    have htext : (k.bytes == text) = true := by simpa only using List.find?_some hfind
    exact ⟨fun _ => rfl, by rw [List.append_nil, eq_of_beq htext]⟩
  case h_2 =>
    split at h
    case h_1 k' hfind =>
      cases h
      have hprefix : k.bytes.isPrefixOf text = true := by simpa only using List.find?_some hfind
      have hmem : k ∈ argumentKeywords := List.mem_of_find?_eq_some hfind
      refine ⟨fun hp => absurd hp ?_, (List.prefix_iff_eq_append.mp (List.isPrefixOf_iff_prefix.mp hprefix)).symm⟩
      revert hmem
      cases k <;> decide
    case h_2 => cases h

theorem tail_bytes_injective {t u : Tail} (h : t.bytes = u.bytes) : t = u := by
  cases t with
  | absent =>
    cases u with
    | absent => rfl
    | eob _ => cases h
  | eob ignored =>
    cases u with
    | absent => cases h
    | eob _ => exact congrArg Tail.eob (List.cons.inj h).2

/-- The tail of a command's payload (R103). -/
theorem commandTail_commandPayload (k : Keyword) {arg : Bytes} (h : Config.eob ∉ arg) (tail : Tail) :
    commandTail (commandPayload k arg tail) = tail := by
  have hsplit := commandText_append_tail (commandPayload k arg tail)
  rw [commandText_commandPayload k h tail, commandPayload] at hsplit
  exact tail_bytes_injective (List.append_cancel_left hsplit)

/-! ## Decoding a command -/

theorem decodeCmd_of_length {e : EndpointId} {payload : Bytes} (h : payload.length ≤ Config.block) {k : Keyword} {arg : Bytes}
    (hk : selectKeyword (commandText payload) = some (k, arg)) :
    decodeCmd e payload = .ok (k.instr e arg (commandTail payload)) := by
  unfold decodeCmd
  simp only [List.take_of_length_le h, hk]

theorem decodeCmd_eq_ok {e : EndpointId} {payload : Bytes} (h : payload.length ≤ Config.block) {i : Instr}
    (hi : decodeCmd e payload = .ok i) :
    ∃ k arg, selectKeyword (commandText payload) = some (k, arg) ∧ i = k.instr e arg (commandTail payload) := by
  unfold decodeCmd at hi
  simp only [List.take_of_length_le h] at hi
  split at hi
  case h_1 k arg hk => exact ⟨k, arg, hk, (Except.ok.inj hi).symm⟩
  case h_2 => cases hi

/-- A well-formed command is decoded from its own payload. -/
theorem decodeCmd_encode {i : Instr} {e : EndpointId} {payload : Bytes} (hwf : i.WellFormed)
    (h : encode i = .cmd e payload) : decodeCmd e payload = .ok i := by
  obtain ⟨k, arg, tail, hplain, rfl, rfl⟩ := keywordInstr_of_encode h
  obtain ⟨harg, hlen⟩ := wellFormed_keywordInstr hplain hwf
  have hk : selectKeyword (commandText (commandPayload k arg tail)) = some (k, arg) := by
    rw [commandText_commandPayload k harg tail, selectKeyword_bytes k arg hplain]
  rw [decodeCmd_of_length hlen hk, commandTail_commandPayload k harg tail]

/-- A payload of one block that is decoded is the payload of its operation. -/
theorem encode_of_decodeCmd {i : Instr} {e : EndpointId} {payload : Bytes} (hlen : payload.length ≤ Config.block)
    (h : decodeCmd e payload = .ok i) : encode i = .cmd e payload := by
  obtain ⟨k, arg, hk, rfl⟩ := decodeCmd_eq_ok hlen h
  obtain ⟨hplain, htext⟩ := selectKeyword_eq_some hk
  rw [encode_keywordInstr hplain, commandPayload, ← htext, commandText_append_tail]

/-! ## A command is its WRITEOUT (R103, R230, log 7) -/

section
variable {run run' : RunCommand} {payload : Bytes}

/-- Two rules that agree on the text of a payload make the same of it. -/
theorem consumeBlock_congr (h : ∀ status d, run (commandText payload) status d = run' (commandText payload) status d)
    (e : EndpointId) (s : State) : consumeBlock run e payload s = consumeBlock run' e payload s := by
  have hconsume : ∀ status d, consumeWith run payload status d = consumeWith run' payload status d := fun status d => by
    simp only [consumeWith, h]
  unfold consumeBlock
  simp only [hconsume]

theorem commandTransfer_congr (hlen : payload.length ≤ Config.block)
    (h : ∀ status d, run (commandText payload) status d = run' (commandText payload) status d) (e : EndpointId) (s : State) :
    commandTransfer run e payload s = commandTransfer run' e payload s := by
  have hframe : (frameOf payload).take (min payload.length Config.block) = payload := by
    rw [frameOf_take, List.take_of_length_le hlen]
  unfold commandTransfer writeoutWith
  simp only [hframe, consumeBlock_congr h]

end

theorem exec_writeout (e : EndpointId) (payload : Bytes) (s : State) :
    exec (.writeout e payload) s = commandTransfer executeText e payload s := rfl

/-- A text that selects a keyword runs its rule (R253). -/
theorem executeText_of_select {text : Bytes} {k : Keyword} {arg : Bytes} (h : selectKeyword text = some (k, arg)) (status : Int)
    (d : CommandDevice) : executeText text status d = runKeyword arg status d k := by
  simp only [executeText, h]

/-- Settles O41: on its own text, the rule of a keyword is what the device selects. -/
theorem commandIsItsWriteout : Obligations.CommandIsItsWriteout := by
  intro i e payload s hwf h
  obtain ⟨k, arg, tail, hplain, rfl, rfl⟩ := keywordInstr_of_encode h
  obtain ⟨harg, hlen⟩ := wellFormed_keywordInstr hplain hwf
  rw [exec_keywordInstr hplain, exec_writeout]
  refine commandTransfer_congr hlen (fun status d => ?_) e s
  have hselect := selectKeyword_bytes k arg hplain
  rw [commandText_commandPayload k harg tail, executeText_of_select hselect, List.drop_left]

end Sys2Proof.Machine
end

section
/-! The round trip of operations and requests (R90, R91): decode after encode, encode after decode, and a few decoded words. -/

namespace Sys2Proof.Machine

/-! ## Decode after encode -/

/-- An address row is decoded from its own word (R95). -/
theorem decodeAddrWord_encode {i : Instr} {A : AddrWord} (h : encode i = .addr A) : decodeAddrWord A = .ok i := by
  cases i with
  | addrUser a => cases h; exact decodeAddrWord_userWord a
  | addrMmio0 a => cases h; exact decodeAddrWord_mmioWord 0 a
  | addrMmio1 a => cases h; exact decodeAddrWord_mmioWord 1 a
  | addrMmio2 a => cases h; exact decodeAddrWord_mmioWord 2 a
  | addrMmio3 a => cases h; exact decodeAddrWord_mmioWord 3 a
  | addrMmio4 a => cases h; exact decodeAddrWord_mmioWord 4 a
  | addrMmio5 a => cases h; exact decodeAddrWord_mmioWord 5 a
  | addrMmio6 a => cases h; exact decodeAddrWord_mmioWord 6 a
  | addrMmio7 a => cases h; exact decodeAddrWord_mmioWord 7 a
  | addrRam1 a => cases h; exact decodeAddrWord_ramWord 0 a
  | addrRam2 a => cases h; exact decodeAddrWord_ramWord 1 a
  | addrRam3 a => cases h; exact decodeAddrWord_ramWord 2 a
  | addrRam4 a => cases h; exact decodeAddrWord_ramWord 3 a
  | addrRam5 a => cases h; exact decodeAddrWord_ramWord 4 a
  | addrRam6 a => cases h; exact decodeAddrWord_ramWord 5 a
  | addrRam7 a => cases h; exact decodeAddrWord_ramWord 6 a
  | _ => cases h

theorem decode_encode_read {addr : Int} (h : fitsWord addr = true) : decode (encode (.read addr)) = .ok (.read addr) := by
  show Except.ok (Instr.read (intOfWord (wordOfInt addr))) = _
  rw [intOfWord_wordOfInt h]

theorem decode_encode_write {addr : Int} (h : fitsWord addr = true) (byte : Byte) :
    decode (encode (.write addr byte)) = .ok (.write addr byte) := by
  show Except.ok (Instr.write (intOfWord (wordOfInt addr)) byte) = _
  rw [intOfWord_wordOfInt h]

/-- Settles O1: by the operation, its selector, its address row or its keyword. -/
theorem decodeEncode : Obligations.DecodeEncode := by
  intro i hwf
  cases i with
  | read addr => exact decode_encode_read ((firstFailing_cons ..).mp hwf).1
  | write addr byte => exact decode_encode_write ((firstFailing_cons ..).mp hwf).1 byte
  | malloc | free | attach | detach | cable | startSend | startRead | writeout | hasNext | recvMessage => rfl
  | install | remove | start | halt | reset => rfl
  | addrUser | addrMmio0 | addrMmio1 | addrMmio2 | addrMmio3 | addrMmio4 | addrMmio5 | addrMmio6 | addrMmio7 =>
    exact decodeAddrWord_encode rfl
  | addrRam1 | addrRam2 | addrRam3 | addrRam4 | addrRam5 | addrRam6 | addrRam7 => exact decodeAddrWord_encode rfl
  | cmdDevrst | cmdDevstu | cmdDevtyp | cmdDevnam | cmdOpenr | cmdOpenw | cmdOpena | cmdRead => exact decodeCmd_encode hwf rfl
  | cmdWrite | cmdClose | cmdDelete | cmdMkdir | cmdMkfile | cmdTouch | cmdListfiles | cmdGetlen =>
    exact decodeCmd_encode hwf rfl

/-! ## Encode after decode -/

theorem rejectSelector_ne_ok (opsel : Byte) (i : Instr) : rejectSelector opsel ≠ .ok i := nofun

section
variable {opsel : Byte} {i : Instr}

theorem encode_of_decodeBus {A : AddrWord} {wdata : Option Byte} (h : decodeBus opsel A wdata = .ok i) :
    encode i = .bus opsel A wdata := by
  unfold decodeBus at h
  split at h
  case h_1 hsel =>
    obtain rfl : opsel = 0x00 := BitVec.eq_of_toNat_eq hsel
    cases h
    rw [encode, wordOfInt_intOfWord]
  case h_2 b hsel =>
    obtain rfl : opsel = 0x01 := BitVec.eq_of_toNat_eq hsel
    cases h
    rw [encode, wordOfInt_intOfWord]
  case h_3 => exact absurd h (rejectSelector_ne_ok opsel i)

theorem encode_of_decodeAlloc {n : Int} (h : decodeAlloc opsel n = .ok i) : encode i = .alloc opsel n := by
  unfold decodeAlloc at h
  split at h
  case h_1 hsel => obtain rfl : opsel = 0x10 := BitVec.eq_of_toNat_eq hsel; cases h; rfl
  case h_2 hsel => obtain rfl : opsel = 0x11 := BitVec.eq_of_toNat_eq hsel; cases h; rfl
  case h_3 => exact absurd h (rejectSelector_ne_ok opsel i)

theorem encode_of_decodeLink {e : EndpointId} {operand : LinkOperand} (h : decodeLink opsel e operand = .ok i) :
    encode i = .link opsel e operand := by
  unfold decodeLink at h
  split at h
  case h_1 f hsel => obtain rfl : opsel = 0x20 := BitVec.eq_of_toNat_eq hsel; cases h; rfl
  case h_2 hsel => obtain rfl : opsel = 0x21 := BitVec.eq_of_toNat_eq hsel; cases h; rfl
  case h_3 hsel => obtain rfl : opsel = 0x22 := BitVec.eq_of_toNat_eq hsel; cases h; rfl
  case h_4 hsel => obtain rfl : opsel = 0x23 := BitVec.eq_of_toNat_eq hsel; cases h; rfl
  case h_5 hsel => obtain rfl : opsel = 0x24 := BitVec.eq_of_toNat_eq hsel; cases h; rfl
  case h_6 bytes hsel => obtain rfl : opsel = 0x25 := BitVec.eq_of_toNat_eq hsel; cases h; rfl
  case h_7 hsel => obtain rfl : opsel = 0x26 := BitVec.eq_of_toNat_eq hsel; cases h; rfl
  case h_8 hsel => obtain rfl : opsel = 0x27 := BitVec.eq_of_toNat_eq hsel; cases h; rfl
  case h_9 => exact absurd h (rejectSelector_ne_ok opsel i)

theorem encode_of_decodeCfg {operands : CfgOperands} (h : decodeCfg opsel operands = .ok i) :
    encode i = .cfg opsel operands := by
  unfold decodeCfg at h
  split at h
  case h_1 hsel => obtain rfl : opsel = 0x30 := BitVec.eq_of_toNat_eq hsel; cases h; rfl
  case h_2 k hsel => obtain rfl : opsel = 0x31 := BitVec.eq_of_toNat_eq hsel; cases h; rfl
  case h_3 hsel => obtain rfl : opsel = 0x32 := BitVec.eq_of_toNat_eq hsel; cases h; rfl
  case h_4 hsel => obtain rfl : opsel = 0x33 := BitVec.eq_of_toNat_eq hsel; cases h; rfl
  case h_5 hsel => obtain rfl : opsel = 0x34 := BitVec.eq_of_toNat_eq hsel; cases h; rfl
  case h_6 => exact absurd h (rejectSelector_ne_ok opsel i)

end

/-- A word that matches a row is the word of that row (R95). -/
theorem encode_of_decodeAddrWord {A : AddrWord} {i : Instr} (h : decodeAddrWord A = .ok i) : encode i = .addr A := by
  have hrow := addrDecoded_decodeAddrWord A
  rw [h] at hrow
  cases hrow with
  | user a => rfl
  | mmio j a => exact encode_mmioRow j a
  | ram k a => exact encode_ramRow k a

/-- Settles O2: by the form of the request. -/
theorem encodeDecode : Obligations.EncodeDecode := by
  intro r i h hlen
  cases r with
  | bus opsel A wdata => exact encode_of_decodeBus h
  | alloc opsel n => exact encode_of_decodeAlloc h
  | link opsel e operand => exact encode_of_decodeLink h
  | cfg opsel operands => exact encode_of_decodeCfg h
  | addr A => exact encode_of_decodeAddrWord h
  | cmd e payload => exact encode_of_decodeCmd (hlen e payload rfl) h

/-! ## A few words -/

/-- Settles O3: the address words by their rows, the commands by the round trip, the rest by their selectors. -/
theorem decodedWords : Obligations.DecodedWords := by
  refine ⟨rfl, rfl, rfl, rfl, rfl, ?_, ?_, ?_, ?_, rfl⟩
  · exact decodeAddrWord_mmioWord 0 0x0FFFE
  · exact decodeAddrWord_ramWord 0 0x00000
  · exact decodeEncode (.cmdDevrst 0 (.eob [])) rfl
  · exact decodeEncode (.cmdOpenr 0 [0x22, 0x61, 0x22] .absent) rfl

end Sys2Proof.Machine
end

section
/-! The block-size pair of a count and its flag (R101). -/

namespace Sys2Proof.Machine

/-! ## The pair (R101) -/

theorem encodePairHigh_lt (b : BlockSize) : (encodePairHigh b).toNat < 64 := by
  have hc := b.cont.toNat_lt
  have hz := (decide (b.len = 0)).toNat_lt
  rw [encodePairHigh_toNat]
  omega

/-- The high byte of the pair has no bit above its bit 5. -/
theorem encodePairHigh_bit_above (b : BlockSize) {i : Nat} (hi : 6 ≤ i) : (encodePairHigh b).getLsbD i = false :=
  Nat.testBit_lt_two_pow ((encodePairHigh_lt b).trans_le (Nat.pow_le_pow_right (n := 2) (by decide) hi))

/-- The pair of a count gives the count and the flag back: 0 by its bit 5, 4096 by its empty length. -/
theorem decodePair_encodePair {n : Nat} (hn : n ≤ 4096) (c : Bool) :
    decodePair (encodePairLow ⟨n, c⟩) (encodePairHigh ⟨n, c⟩) = ⟨n, c⟩ := by
  unfold decodePair
  simp only [encodePairHigh_bit_zero, encodePairHigh_bit_cont, encodePairHigh_mod, encodePairLow_toNat, decide_eq_true_eq]
  congr 1
  split_ifs <;> omega

/-- Settles O16: each field of the pair by its own lemma. -/
theorem pairCoding : Obligations.PairCoding := by
  refine ⟨fun n c hn => ?_, fun _ _ => rfl⟩
  have hlow : (encodePairLow ⟨n, c⟩).toNat = n % 4096 % 256 := by
    rw [encodePairLow_toNat, Nat.mod_mod_of_dvd _ (by decide)]
  exact ⟨hlow, encodePairHigh_mod _, encodePairHigh_bit_cont _, encodePairHigh_bit_zero _,
    encodePairHigh_bit_above _ (by decide), encodePairHigh_bit_above _ (by decide), decodePair_encodePair hn c⟩

end Sys2Proof.Machine
end

section
/-! The arguments of OPEN and WRITE (R105, R106, R11). -/

namespace Sys2Proof.Machine

/-! ## Decimal digits -/

theorem isDigit_iff {b : Byte} : isDigit b = true ↔ 0x30 ≤ b.toNat ∧ b.toNat ≤ 0x39 := decide_eq_true_iff

theorem parseDigits_eq_some {digits : Bytes} {n : Nat} :
    parseDigits digits = some n ↔ digits ≠ [] ∧ digits.all isDigit ∧ decimalValue digits = n := by
  unfold parseDigits
  split
  case isTrue h => simp only [Option.some.injEq, ne_eq, h, not_false_eq_true, true_and]
  case isFalse h =>
    constructor
    · exact nofun
    · rintro ⟨hne, hall, -⟩
      exact absurd ⟨hne, hall⟩ h

theorem parseDigits_isSome {digits : Bytes} :
    (parseDigits digits).isSome ↔ digits ≠ [] ∧ ∀ b ∈ digits, 0x30 ≤ b.toNat ∧ b.toNat ≤ 0x39 := by
  simp only [Option.isSome_iff_exists, parseDigits_eq_some, List.all_eq_true, isDigit_iff, exists_and_left, exists_eq', and_true]

/-- A zero in front changes no value (R106). -/
theorem parseDigits_zero_cons {digits : Bytes} {n : Nat} (h : parseDigits digits = some n) :
    parseDigits (0x30 :: digits) = some n := by
  obtain ⟨-, hall, hvalue⟩ := parseDigits_eq_some.mp h
  exact parseDigits_eq_some.mpr ⟨List.cons_ne_nil _ _, hall, hvalue⟩

/-! ## `dec(n)` (R11) -/

/-- The byte of a digit. -/
theorem digitByte_toNat {d : Nat} (h : d < 10) : (BitVec.ofNat 8 (0x30 + d)).toNat = 0x30 + d := toNat_byte (by omega)

theorem parseDigits_digitByte {d : Nat} (h : d < 10) : parseDigits [BitVec.ofNat 8 (0x30 + d)] = some d := by
  have hbyte := digitByte_toNat h
  refine parseDigits_eq_some.mpr ⟨List.cons_ne_nil _ _, ?_, ?_⟩
  · rw [List.all_cons, List.all_nil, Bool.and_true, isDigit_iff]
    omega
  · simp only [decimalValue, List.foldl_cons, List.foldl_nil, hbyte]
    omega

/-- A digit behind others counts once, the others ten times. -/
theorem parseDigits_append_digitByte {digits : Bytes} {n d : Nat} (hn : parseDigits digits = some n) (hd : d < 10) :
    parseDigits (digits ++ [BitVec.ofNat 8 (0x30 + d)]) = some (10 * n + d) := by
  obtain ⟨-, hall, rfl⟩ := parseDigits_eq_some.mp hn
  obtain ⟨-, hdigit, hvalue⟩ := parseDigits_eq_some.mp (parseDigits_digitByte hd)
  refine parseDigits_eq_some.mpr ⟨by simp, ?_, ?_⟩
  · rw [List.all_append, hall, hdigit, Bool.and_true]
  · simp only [decimalValue, List.foldl_append, List.foldl_cons, List.foldl_nil, digitByte_toNat hd]
    omega

theorem parseDigits_decimalDigits (fuel n : Nat) (h : n < 10 ^ (fuel + 1)) :
    parseDigits (decimalDigits fuel n) = some n := by
  induction fuel generalizing n with
  | zero =>
    have hn : n < 10 := by omega
    rw [decimalDigits, Nat.mod_eq_of_lt hn]
    exact parseDigits_digitByte hn
  | succ fuel ih =>
    rw [decimalDigits]
    split
    case isTrue hn => exact parseDigits_digitByte hn
    case isFalse =>
      have hinit : n / 10 < 10 ^ (fuel + 1) := Nat.div_lt_of_lt_mul (by rwa [← Nat.pow_succ'])
      rw [parseDigits_append_digitByte (ih _ hinit) (Nat.mod_lt n (by decide)), Nat.div_add_mod]

theorem parseDigits_decimal (n : Nat) : parseDigits (decimal n) = some n :=
  parseDigits_decimalDigits n n ((Nat.lt_pow_self (by decide)).trans (Nat.pow_lt_pow_right (by decide) n.lt_succ_self))

/-! ## The argument of OPEN (R105) -/

/-- What stands behind the path of an OPEN: nothing, or a comma and the digits of the drive. -/
def parseDrive : Bytes → Option (Option Nat)
  | [] => some none
  | 0x2C#8 :: digits => (parseDigits digits).map some
  | _ => none

theorem parseDrive_eq_some {rest : Bytes} {drive : Option Nat} :
    parseDrive rest = some drive ↔
      (rest = [] ∧ drive = none) ∨ ∃ digits n, rest = 0x2C :: digits ∧ parseDigits digits = some n ∧ drive = some n := by
  unfold parseDrive
  split
  case h_1 =>
    constructor
    · intro h
      exact .inl ⟨rfl, (Option.some.inj h).symm⟩
    · rintro (⟨-, rfl⟩ | ⟨digits, n, h, -⟩)
      · rfl
      · cases h
  case h_2 digits =>
    rw [Option.map_eq_some_iff]
    constructor
    · rintro ⟨n, hn, rfl⟩
      exact .inr ⟨digits, n, rfl, hn, rfl⟩
    · rintro (⟨h, -⟩ | ⟨digits', n, h, hn, rfl⟩)
      · cases h
      · obtain ⟨-, rfl⟩ := List.cons.inj h
        exact ⟨n, hn, rfl⟩
  case h_3 hnil hcomma =>
    constructor
    · exact nofun
    · rintro (⟨h, -⟩ | ⟨digits, n, h, -⟩)
      · exact absurd h hnil
      · exact absurd h (hcomma digits)

/-- The bytes before the first quote, and those from it on. -/
theorem takeWhile_quote {path : Bytes} (h : 0x22 ∉ path) (rest : Bytes) :
    (path ++ 0x22 :: rest).takeWhile (· != 0x22#8) = path ∧ (path ++ 0x22 :: rest).dropWhile (· != 0x22#8) = 0x22 :: rest := by
  have hpath : ∀ b ∈ path, (b != 0x22#8) = true := fun b hb =>
    bne_iff_ne.mpr fun he => h (show 0x22#8 ∈ path from he ▸ hb)
  rw [List.takeWhile_append_of_pos hpath, List.dropWhile_append_of_pos hpath]
  exact ⟨List.append_nil path, rfl⟩

theorem quote_of_dropWhile {l post : Bytes} {b : Byte} (h : l.dropWhile (· != 0x22#8) = b :: post) :
    0x22 ∉ l.takeWhile (· != 0x22#8) ∧ l = l.takeWhile (· != 0x22#8) ++ 0x22 :: post := by
  have hb : b = 0x22 := bne_eq_false_iff_eq.mp (dropWhile_head (p := (· != 0x22#8)) h)
  refine ⟨fun hm => ?_, ?_⟩
  · have hne : ((0x22 : Byte) != 0x22#8) = true := List.mem_takeWhile_imp (p := (· != 0x22#8)) hm
    exact absurd hne (by decide)
  · rw [← hb, ← h]
    exact List.takeWhile_append_dropWhile.symm

/-- Behind a path between two quotes stands the drive of an OPEN, or nothing. -/
theorem parseOpen_quoted {path : Bytes} (h : 0x22 ∉ path) (rest : Bytes) :
    parseOpen (0x22 :: (path ++ 0x22 :: rest)) = (parseDrive rest).map (fun drive => (path, drive)) := by
  obtain ⟨htake, hdrop⟩ := takeWhile_quote h rest
  unfold parseOpen
  split
  case h_1 l hl =>
    obtain ⟨-, rfl⟩ := List.cons.inj hl
    simp only [htake, hdrop]
    split
    case h_1 hrest =>
      obtain ⟨-, rfl⟩ := List.cons.inj hrest
      rfl
    case h_2 digits hrest =>
      obtain ⟨-, rfl⟩ := List.cons.inj hrest
      exact (Option.map_map ..).symm
    case h_3 hnil hcomma =>
      cases hdrive : parseDrive rest with
      | none => rfl
      | some drive =>
        rcases parseDrive_eq_some.mp hdrive with ⟨rfl, -⟩ | ⟨digits, n, rfl, -⟩
        · exact absurd rfl (hnil _)
        · exact absurd rfl (hcomma _ _)
  case h_2 hno => exact absurd rfl (hno _)

/-- An argument of OPEN begins with a path between two quotes. -/
theorem quoted_of_parseOpen {arg path : Bytes} {drive : Option Nat} (h : parseOpen arg = some (path, drive)) :
    0x22 ∉ path ∧ ∃ rest, arg = 0x22 :: (path ++ 0x22 :: rest) := by
  unfold parseOpen at h
  split at h
  case h_1 l =>
    split at h
    case h_1 b hdrop =>
      cases h
      obtain ⟨hpath, hl⟩ := quote_of_dropWhile hdrop
      exact ⟨hpath, [], congrArg (0x22 :: ·) hl⟩
    case h_2 b digits hdrop =>
      obtain ⟨n, -, hpair⟩ := Option.map_eq_some_iff.mp h
      cases hpair
      obtain ⟨hpath, hl⟩ := quote_of_dropWhile hdrop
      exact ⟨hpath, _, congrArg (0x22 :: ·) hl⟩
    case h_3 => cases h
  case h_2 => cases h

theorem parseOpen_eq_some {arg path : Bytes} {drive : Option Nat} :
    parseOpen arg = some (path, drive) ↔
      0x22 ∉ path ∧ ∃ rest, arg = 0x22 :: (path ++ 0x22 :: rest) ∧ parseDrive rest = some drive := by
  constructor
  · intro h
    obtain ⟨hpath, rest, rfl⟩ := quoted_of_parseOpen h
    rw [parseOpen_quoted hpath] at h
    obtain ⟨_, hdrive, hpair⟩ := Option.map_eq_some_iff.mp h
    cases hpair
    exact ⟨hpath, rest, rfl, hdrive⟩
  · rintro ⟨hpath, rest, rfl, hdrive⟩
    rw [parseOpen_quoted hpath, hdrive, Option.map_some]

/-- Settles O45: the path of OPEN by its quotes, digits by their value. -/
theorem argumentGrammars : Obligations.ArgumentGrammars := by
  refine ⟨fun arg path drive => ?_, fun _ => parseDigits_isSome, fun _ _ => parseDigits_zero_cons, parseDigits_decimal⟩
  rw [parseOpen_eq_some]
  simp only [parseDrive_eq_some]
  constructor
  · rintro ⟨hpath, rest, rfl, ⟨rfl, hdrive⟩ | ⟨digits, n, rfl, hdigits, hdrive⟩⟩
    · exact ⟨hpath, .inl ⟨rfl, hdrive⟩⟩
    · exact ⟨hpath, .inr ⟨digits, n, by simp, hdigits, hdrive⟩⟩
  · rintro ⟨hpath, ⟨rfl, hdrive⟩ | ⟨digits, n, rfl, hdigits, hdrive⟩⟩
    · exact ⟨hpath, [], rfl, .inl ⟨rfl, hdrive⟩⟩
    · exact ⟨hpath, 0x2C :: digits, by simp, .inr ⟨digits, n, rfl, hdigits, hdrive⟩⟩

end Sys2Proof.Machine
end

section
/-! READ and WRITE of user RAM with their frame (R130, R131), and the configuration operations: INSTALL and REMOVE by what the
removal of a card and the creation of its endpoints leave (R139 to R141), START, HALT and RESET (R142 to R144). -/

namespace Sys2Proof.Machine

/-! ## User RAM (R130, R131, R133 (2)) -/

/-- Settles O8: the frame by the WRITE's one update, the bytes by the read after a write. -/
theorem userRamAccess : Obligations.UserRamAccess := by
  intro s a v hrun ha
  exact ⟨exec_read_user hrun ha, _, exec_write_user hrun ha v, fun b => State.userByte_writeUser s a b v, rfl⟩

/-! ## The entry of an identifier in a list -/

section
variable {α : Type}

theorem lookup_cons_eq_ite (e f : EndpointId) (x : α) (l : List (EndpointId × α)) :
    ((e, x) :: l).lookup f = if f = e then some x else l.lookup f := by
  rw [List.lookup_cons]
  by_cases h : f = e
  · rw [beq_iff_eq.mpr h, if_pos h]
  · rw [beq_eq_false_iff_ne.mpr h, if_neg h]

theorem lookup_filter_eq_none {l : List (EndpointId × α)} {f : EndpointId} (h : l.lookup f = none)
    (keep : EndpointId × α → Bool) : (l.filter keep).lookup f = none := by
  rw [List.lookup_eq_none_iff] at h ⊢
  exact fun p hp => h p (List.mem_of_mem_filter hp)

theorem lookup_filter_eq_some {l : List (EndpointId × α)} {f : EndpointId} {x : α} (h : l.lookup f = some x)
    {keep : EndpointId × α → Bool} (hkeep : keep (f, x) = true) : (l.filter keep).lookup f = some x := by
  obtain ⟨before, after, rfl, hbefore⟩ := List.lookup_eq_some_iff.mp h
  rw [List.filter_append, List.filter_cons_of_pos hkeep]
  exact List.lookup_eq_some_iff.mpr ⟨_, _, rfl, fun p hp => hbefore p (List.mem_of_mem_filter hp)⟩

end

/-! ## The endpoints a card owns (R140) -/

theorem lookup_putEndpoint (e f : EndpointId) (x : Endpoint) (l : List (EndpointId × Endpoint)) :
    (putEndpoint e x l).lookup f = if f = e then some x else l.lookup f := by
  induction l with
  | nil => exact lookup_cons_eq_ite e f x []
  | cons p rest ih =>
    obtain ⟨g, y⟩ := p
    unfold putEndpoint
    split
    · exact lookup_cons_eq_ite e f x _
    · split
      · subst_vars
        rw [lookup_cons_eq_ite, lookup_cons_eq_ite]
        split <;> rfl
      · rename_i hne
        rw [lookup_cons_eq_ite, lookup_cons_eq_ite, ih]
        by_cases hf : f = g
        · rw [if_pos hf, if_pos hf, if_neg (hf ▸ Ne.symm hne)]
        · rw [if_neg hf, if_neg hf]

/-- The endpoints of the list `owned` put in one after the other, each as built for slot `k`. -/
def putOwned (k : Slot) (owned : List (EndpointId × EndpointBuild)) (l : List (EndpointId × Endpoint)) :
    List (EndpointId × Endpoint) :=
  owned.foldl (fun eps p => putEndpoint p.1 (p.2.construct (some k)) eps) l

theorem placeCard_endpoints (k : Slot) (card : Peripheral) (ram mmio irqs : Nat) (s : State) :
    (placeCard k card ram mmio irqs s).endpoints =
      putOwned k ((s.params.cardEndpoints.lookup card).getD []) s.endpoints := rfl

/-- An identifier that `owned` lists names the endpoint as built, any other what it named before. -/
theorem lookup_putOwned (k : Slot) {owned : List (EndpointId × EndpointBuild)} (hnodup : (owned.map Prod.fst).Nodup)
    (l : List (EndpointId × Endpoint)) (f : EndpointId) :
    (putOwned k owned l).lookup f = ((owned.lookup f).map (EndpointBuild.construct (some k))).or (l.lookup f) := by
  induction owned generalizing l with
  | nil => rfl
  | cons p rest ih =>
    obtain ⟨e, b⟩ := p
    obtain ⟨hnotin, hrest⟩ := List.nodup_cons.mp hnodup
    have hput : (putOwned k ((e, b) :: rest) l).lookup f = ((rest.lookup f).map (EndpointBuild.construct (some k))).or
        (if f = e then some (b.construct (some k)) else l.lookup f) := by
      rw [← lookup_putEndpoint]
      exact ih hrest _
    rw [hput, lookup_cons_eq_ite]
    by_cases hf : f = e
    · subst hf
      have hnone : rest.lookup f = none :=
        List.lookup_eq_none_iff.mpr fun q hq => bne_iff_ne.mpr fun hfq => hnotin (List.mem_map.mpr ⟨q, hq, hfq.symm⟩)
      simp [hnone]
    · rw [if_neg hf, if_neg hf]

theorem mem_putOwned {k : Slot} {owned : List (EndpointId × EndpointBuild)} {l : List (EndpointId × Endpoint)}
    {p : EndpointId × Endpoint} (h : p ∈ putOwned k owned l) : p ∈ l ∨ (owned.lookup p.1).isSome := by
  rw [List.lookup_isSome_iff]
  induction owned generalizing l with
  | nil => exact .inl h
  | cons q rest ih =>
    obtain h | ⟨r, hr, hpr⟩ := ih h
    · obtain rfl | h := mem_putEndpoint h
      · exact .inr ⟨q, List.mem_cons_self, beq_self_eq_true _⟩
      · exact .inl h
    · exact .inr ⟨r, List.mem_cons_of_mem _ hr, hpr⟩

/-! ## The removal of a card (R139, R141) -/

theorem disposeSlot_of_empty {k : Slot} {s : State} (h : s.slot k = none) : disposeSlot k s = .next s := by
  unfold disposeSlot
  rw [h]

/-- The removal of a card comes back when the card's `dispose` does (R139, R300). -/
theorem disposeSlot_of_returns {k : Slot} {s : State}
    (hret : ∀ ent id token, s.slot k = some ent → ent.card = .vendor id token →
      Config.cardDisposeReturns id token = true) : ∃ u, disposeSlot k s = .next u := by
  cases hk : s.slot k with
  | none => exact ⟨s, disposeSlot_of_empty hk⟩
  | some ent =>
    unfold disposeSlot
    rw [hk]
    dsimp only
    split
    · exact ⟨_, rfl⟩
    · exact ⟨_, rfl⟩
    · rename_i id token hc
      rw [if_pos (hret ent id token hk hc)]
      exact ⟨_, rfl⟩

section
variable {k : Slot} {s u : State} (h : disposeSlot k s = .next u)
include h

theorem disposeSlot_slot_same : u.slot k = none := by
  obtain ⟨hk, rfl⟩ | ⟨-, rfl⟩ := disposeSlot_next h
  · exact hk
  · exact State.slot_setSlot_same _ k none

theorem disposeSlot_slot_other {j : Slot} (hj : j ≠ k) : u.slot j = s.slot j := by
  obtain ⟨-, rfl⟩ | ⟨-, rfl⟩ := disposeSlot_next h
  · rfl
  · exact State.slot_setSlot_other (s.note (.dispose k)) none hj

theorem disposeSlot_periCalls :
    u.periCalls = if (s.slot k).isSome then .dispose k :: s.periCalls else s.periCalls := by
  obtain ⟨hk, rfl⟩ | ⟨hk, rfl⟩ := disposeSlot_next h
  · simp [hk]
  · rw [if_pos hk]
    rfl

theorem disposeSlot_mem_endpoints (hk : (s.slot k).isSome) (p : EndpointId × Endpoint) :
    p ∈ u.endpoints ↔ p ∈ s.endpoints ∧ p.2.owner ≠ some k := by
  obtain ⟨hnone, -⟩ | ⟨-, rfl⟩ := disposeSlot_next h
  · simp [hnone] at hk
  · simp [List.mem_filter]

theorem disposeSlot_endpoint?_none {f : EndpointId} (hf : s.endpoint? f = none) : u.endpoint? f = none := by
  obtain ⟨-, rfl⟩ | ⟨-, rfl⟩ := disposeSlot_next h
  · exact hf
  · exact lookup_filter_eq_none hf _

/-- An endpoint that the card does not own stays as it is. -/
theorem disposeSlot_endpoint?_kept {f : EndpointId} {x : Endpoint} (hf : s.endpoint? f = some x)
    (hx : x.owner ≠ some k) : u.endpoint? f = some x := by
  obtain ⟨-, rfl⟩ | ⟨-, rfl⟩ := disposeSlot_next h
  · exact hf
  · exact lookup_filter_eq_some hf (bne_iff_ne.mpr hx)

theorem disposeSlot_params : u.params = s.params := by
  rw [disposeSlot_eq h]

theorem disposeSlot_sameMemory : SameMemory s u := by
  rw [disposeSlot_eq h]
  exact .of_eq rfl rfl

end

/-! ## INSTALL and REMOVE (R140, R141) -/

section
variable {k : Slot} {s u : State}

theorem exec_install (hrun : s.runState = .halted) (card : Peripheral) {ram regs : Nat} (irqs : Nat)
    (hram : ram ≤ 1048576) (hregs : regs ≤ 131072) (h : disposeSlot k s = .next u) :
    exec (.install k.val card ram regs irqs) s = .next ((placeCard k card ram regs irqs u).respond .ack) := by
  have hbounds : installBounds k.val ram regs irqs = true := decide_eq_true (by omega)
  exact execInstall_eq_next.mpr ⟨hrun, hbounds, u, by rwa [Fin.ofNat_val_eq_self], by rw [Fin.ofNat_val_eq_self]; rfl⟩

theorem exec_remove (hrun : s.runState = .halted) (h : disposeSlot k s = .next u) :
    exec (.remove k.val) s = .next (u.respond .ack) :=
  execRemove_eq_next.mpr ⟨hrun, k.isLt, u, by rwa [Fin.ofNat_val_eq_self], rfl⟩

end

/-- Settles O35: the slot is emptied, then the entry and the endpoints of its card take their places. -/
theorem installPlaces : Obligations.InstallPlaces := by
  intro s k card ram regs irqs owned hrun hram hregs hret howned hnodup
  obtain ⟨u, hu⟩ := disposeSlot_of_returns hret
  have hlist : (placeCard k card ram regs irqs u).endpoints = putOwned k owned u.endpoints := by
    rw [placeCard_endpoints, disposeSlot_params hu, howned]
  have hat (f : EndpointId) : ((placeCard k card ram regs irqs u).respond .ack).endpoint? f =
      ((owned.lookup f).map (EndpointBuild.construct (some k))).or (u.endpoint? f) :=
    (congrArg (List.lookup f) hlist).trans (lookup_putOwned k hnodup u.endpoints f)
  refine ⟨_, buildCard u.installs card, exec_install hrun card irqs hram hregs hu, rfl,
    State.slot_setSlot_same (createEndpoints k card u) k _, fun j hj => ?otherSlots, ?regCard, ?blank, ?vendor,
    disposeSlot_periCalls (u := u) hu, fun f b hf => ?created, fun f x hf hx howner => ?kept, fun f hf hnone => ?absent,
    fun hk p hp howner => ?gone, ?memory, ?frame⟩
  case otherSlots =>
    exact (State.slot_setSlot_other (createEndpoints k card u) _ hj).trans (disposeSlot_slot_other hu hj)
  case regCard => rintro rfl; rfl
  case blank => rintro rfl; rfl
  case vendor => rintro id rfl; exact ⟨_, rfl⟩
  case created => rw [hat, hf]; rfl
  case kept => rw [hat, hf]; exact disposeSlot_endpoint?_kept hu hx howner
  case absent => rw [hat, hf]; exact disposeSlot_endpoint?_none hu hnone
  case gone =>
    obtain hp | hp := mem_putOwned (hlist ▸ hp)
    · exact absurd howner ((disposeSlot_mem_endpoints hu hk p).mp hp).2
    · exact hp
  case memory => exact disposeSlot_sameMemory (u := u) hu
  case frame => rw [disposeSlot_eq hu]; rfl

/-- Settles O36: REMOVE is the removal of the card in the slot. -/
theorem removeEmpties : Obligations.RemoveEmpties := by
  refine fun s k hrun => ⟨fun hk => exec_remove hrun (disposeSlot_of_empty hk), fun ent hk hret => ?_⟩
  have hsome : (s.slot k).isSome := Option.isSome_of_eq_some hk
  obtain ⟨u, hu⟩ := disposeSlot_of_returns fun ent' id token hk' =>
    Option.some.inj (hk.symm.trans hk') ▸ hret id token
  have hcalls := disposeSlot_periCalls hu
  rw [if_pos hsome] at hcalls
  refine ⟨_, exec_remove hrun hu, disposeSlot_slot_same (u := u) hu, fun j => disposeSlot_slot_other (u := u) hu, hcalls,
    disposeSlot_mem_endpoints (u := u) hu hsome, disposeSlot_sameMemory (u := u) hu, ?_⟩
  rw [disposeSlot_eq hu]
  rfl

/-! ## START, HALT, RESET (R142 to R144) -/

/-- Settles O37: each is one update of the run state. -/
theorem startAndHalt : Obligations.StartAndHalt := fun _ => ⟨rfl, rfl⟩

/-- RESET resets each endpoint where it is (R144). -/
theorem State.endpoint?_afterReset (s : State) (e : EndpointId) :
    s.afterReset.endpoint? e = (s.endpoint? e).map Endpoint.reset := by
  unfold State.endpoint? State.afterReset
  dsimp only
  induction s.endpoints with
  | nil => rfl
  | cons p rest ih =>
    obtain ⟨f, x⟩ := p
    rw [List.map_cons, lookup_cons_eq_ite, lookup_cons_eq_ite, ih]
    split <;> rfl

/-- Settles O38: every field by RESET's one update, the endpoints by their reset. -/
theorem resetRestores : Obligations.ResetRestores := by
  refine fun s => ⟨s.afterReset.respond .ack, rfl, rfl, rfl, rfl, fun e he => ?_, fun e x hx => ?_, fun _ => rfl, rfl⟩
  · exact (s.endpoint?_afterReset e).trans (by rw [he]; rfl)
  · refine ⟨x.device.reset, (s.endpoint?_afterReset e).trans (by rw [hx]; rfl), fun c hc => ?_, fun tx rx hd => ?_,
      fun id token hd => ?_⟩
    · rw [hc]; rfl
    · rw [hd]; rfl
    · rw [hd]; rfl

end Sys2Proof.Machine
end

section
/-! MALLOC and FREE as whole operations (R161 to R163): what each answers when its search or its look-up succeeds, the bits and the
table it leaves; the reuse of a block just freed (R165), and the exclusivity of live allocations in every run (R164). -/

namespace Sys2Proof.Machine

/-! ## Exclusivity (R164) -/

/-- The allocator's invariant holds from construction on (R29, R321). -/
theorem Reachable.allocInv {s : State} (h : Reachable s) : AllocInv s := by
  induction h with
  | built b inputs script => exact .of_empty rfl rfl
  | stepped _ hstep ih => exact allocInvKept _ _ ih hstep

/-- Settles O24: the invariant of every reachable state, its units counted in bytes. -/
theorem exclusivity : Obligations.Exclusivity := by
  intro s h
  obtain ⟨-, hlive, hdisj, -⟩ := h.allocInv
  refine ⟨hdisj.imp fun hpq => ?_, fun p hp => ?_⟩
  · omega
  · obtain ⟨hpos, hend, -⟩ := hlive p hp
    exact ⟨hpos, Nat.mul_le_mul_left 64 hend⟩

/-! ## Runs of clear bits (R162) -/

theorem clearRun_eq_false_iff {bits : List Bool} {i n : Nat} :
    clearRun bits i n = false ↔ ∃ j, i ≤ j ∧ j < i + n ∧ bits[j]? = some true := by
  rw [← Bool.not_eq_true, clearRun_iff]
  simp only [not_forall, exists_prop, ne_eq, not_not]

/-- First fit succeeds where some run is clear, and not above that run (R162). -/
theorem exists_firstFit_le {bits : List Bool} {i n : Nat} (hin : i + n ≤ bits.length) (hclear : clearRun bits i n = true) :
    ∃ o, firstFit bits n = some o ∧ o ≤ i := by
  cases hfit : firstFit bits n with
  | none => exact absurd hclear (Bool.eq_false_iff.mp (firstFit_eq_none.mp hfit i hin))
  | some o =>
    obtain ⟨-, -, hleast⟩ := firstFit_eq_some.mp hfit
    exact ⟨o, rfl, not_lt.mp fun hlt => Bool.eq_false_iff.mp (hleast i hlt) hclear⟩

/-! ## MALLOC (R161) -/

theorem exec_malloc_of_fit {s : State} {size : Int} {i : Nat} (hrun : s.runState = .running) (hsize : 0 < size)
    (hfit : firstFit s.allocBits (unitsOf size) = some i) :
    exec (.malloc size) s = .next (s.allocate i (unitsOf size)) := by
  change requireRunning s _ = _
  rw [requireRunning_running hrun, if_neg (not_le.mpr hsize), hfit]

/-- Settles O18: first fit answers the run that is given, and `State.allocate` is the effect. -/
theorem mallocFirstFit : Obligations.MallocFirstFit := by
  intro s size i hrun hsize n hin hclear hleast
  have hfit : firstFit s.allocBits n = some i := by
    refine firstFit_eq_some.mpr ⟨hin, (clearRun_iff ..).mpr fun k h1 h2 => ?_,
      fun j hj => clearRun_eq_false_iff.mpr (hleast j hj)⟩
    rw [hclear k h1 h2]
    exact nofun
  refine ⟨s.allocate i n, exec_malloc_of_fit hrun hsize hfit, rfl, fun k => ?_, fun k => lookup_cons_eq_ite i k n s.allocMap,
    .of_eq rfl rfl, rfl⟩
  refine (setRun_getElem? s.allocBits i n true k).trans ?_
  split
  · rename_i hk
    rw [hclear k hk.1 hk.2]
    rfl
  · rfl

/-! ## FREE (R163) -/

/-- FREE of a unit's offset passes the checks of sign and alignment, and turns on the table look-up alone (R163, R297). -/
theorem exec_free_unit {s : State} (hrun : s.runState = .running) (i : Nat) :
    exec (.free (64 * i : Nat)) s =
      .next ((s.allocMap.lookup i).elim (s.raise .invalidFree (64 * i : Nat)) (s.release i)) := by
  have haligned : ¬(((64 * i : Nat) : Int) < 0 ∨ ((64 * i : Nat) : Int).toNat % Config.unitBytes ≠ 0) := by
    simp only [Config.unitBytes]
    omega
  have hunit : ((64 * i : Nat) : Int).toNat / Config.unitBytes = i := by
    simp only [Config.unitBytes]
    omega
  change requireRunning s _ = _
  rw [requireRunning_running hrun, if_neg haligned, hunit]
  dsimp only
  cases s.allocMap.lookup i <;> rfl

theorem exec_free_of_live {s : State} {i n : Nat} (hrun : s.runState = .running) (hlook : s.allocMap.lookup i = some n) :
    exec (.free (64 * i : Nat)) s = .next (s.release i n) := by
  rw [exec_free_unit hrun, hlook, Option.elim_some]

theorem exec_free_of_not_live {s : State} {i : Nat} (hrun : s.runState = .running) (hlook : s.allocMap.lookup i = none) :
    exec (.free (64 * i : Nat)) s = .next (s.raise .invalidFree (64 * i : Nat)) := by
  rw [exec_free_unit hrun, hlook, Option.elim_none]

/-- The table after FREE: every entry of the unit is gone, every other one is found as before (R163). -/
theorem lookup_release (s : State) (i n k : Nat) :
    (s.release i n).allocMap.lookup k = if k = i then none else s.allocMap.lookup k := by
  change (s.allocMap.filter fun p => p.1 != i).lookup k = _
  split
  · subst k
    refine List.lookup_eq_none_iff.mpr fun p hp => ?_
    obtain ⟨-, hpi⟩ := List.mem_filter.mp hp
    rwa [bne_comm] at hpi
  · rename_i hki
    cases hlook : s.allocMap.lookup k with
    | none => exact lookup_filter_eq_none hlook _
    | some c => exact lookup_filter_eq_some hlook (bne_iff_ne.mpr hki)

/-- Settles O20: `State.release` is the effect, and leaves no entry for the second FREE. -/
theorem freeReleases : Obligations.FreeReleases := by
  intro s i n hrun hlook
  have hgone : (s.release i n).allocMap.lookup i = none := (lookup_release s i n i).trans (if_pos rfl)
  exact ⟨s.release i n, exec_free_of_live hrun hlook, setRun_getElem? s.allocBits i n false, lookup_release s i n,
    .of_eq rfl rfl, rfl, exec_free_of_not_live hrun hgone⟩

/-! ## Reuse (R165) -/

/-- The block a FREE releases is clear, and so is each shorter run at its start (R163). -/
theorem clearRun_release (s : State) {i n c : Nat} (hn : n ≤ c) : clearRun (s.release i c).allocBits i n = true := by
  refine (clearRun_iff ..).mpr fun j h1 h2 hj => ?_
  obtain ⟨-, hout⟩ := setRun_false_eq_some.mp hj
  exact hout ⟨h1, by omega⟩

/-- A live allocation lies inside the bitset (R29). -/
theorem AllocInv.end_le_length {s : State} (hs : AllocInv s) {i c : Nat} (hlook : s.allocMap.lookup i = some c) :
    i + c ≤ s.allocBits.length := by
  obtain ⟨before, after, hmap, -⟩ := List.lookup_eq_some_iff.mp hlook
  obtain ⟨hlen, hlive, -, -⟩ := hs
  obtain ⟨-, hend, -⟩ := hlive (i, c) (by simp [hmap])
  exact hlen ▸ hend

/-- Settles O22: the block just freed is a clear run for first fit, which answers it or a run below it. -/
theorem reuse : Obligations.Reuse := by
  intro s i c size hrun hs hlook hsize hc
  have hin : i + unitsOf size ≤ (s.release i c).allocBits.length :=
    calc i + unitsOf size ≤ i + c := Nat.add_le_add_left hc i
      _ ≤ s.allocBits.length := hs.end_le_length hlook
      _ = (s.release i c).allocBits.length := (setRun_length ..).symm
  obtain ⟨o, hfit, hle⟩ := exists_firstFit_le hin (clearRun_release s hc)
  refine ⟨s.release i c, _, 64 * o, exec_free_of_live hrun hlook, exec_malloc_of_fit hrun hsize hfit, rfl,
    Nat.mul_le_mul_left 64 hle, fun hbelow => ?_⟩
  obtain ⟨-, hclear, -⟩ := firstFit_eq_some.mp hfit
  have hge : ¬o < i := fun hlt => Bool.eq_false_iff.mp (clearRun_eq_false_iff.mpr (hbelow o hlt)) hclear
  omega

end Sys2Proof.Machine
end

section
/-! Cables (R182 to R184, R188): ATTACH and DETACH by the two `recipient` fields they write, CABLE and HAS_NEXT as queries,
and what a third party or a DETACH does to a cable. -/

namespace Sys2Proof.Machine

section
variable {s : State} {e f g : EndpointId} {x y : Endpoint}

/-! ## ATTACH and DETACH (R182, R183) -/

theorem exec_attach (hne : e ≠ f) (hx : s.endpoint? e = some x) (hy : s.endpoint? f = some y) :
    exec (.attach e f) s = .next ((s.attach e f).respond .ack) :=
  execAttach_eq_next.mpr ⟨hne, ⟨x, y, hx, hy⟩, rfl⟩

theorem exec_detach (hx : s.endpoint? e = some x) : exec (.detach e) s = .next ((s.detach e).respond .ack) :=
  execDetach_eq_next.mpr ⟨⟨x, hx⟩, rfl⟩

theorem attach_endpoint?_left (hne : e ≠ f) (hx : s.endpoint? e = some x) :
    (s.attach e f).endpoint? e = some { x with recipient := some f } := by
  simp [State.attach, hne, hx]

theorem attach_endpoint?_right (hne : e ≠ f) (hy : s.endpoint? f = some y) :
    (s.attach e f).endpoint? f = some { y with recipient := some e } := by
  simp [State.attach, hne.symm, hy]

theorem attach_endpoint?_other (he : g ≠ e) (hf : g ≠ f) : (s.attach e f).endpoint? g = s.endpoint? g := by
  simp [State.attach, he, hf]

theorem detach_endpoint?_same (hx : s.endpoint? e = some x) :
    (s.detach e).endpoint? e = some { x with recipient := none } := by
  simp [State.detach, hx]

theorem detach_endpoint?_other (hg : g ≠ e) : (s.detach e).endpoint? g = s.endpoint? g := by
  simp [State.detach, hg]

/-! ## CABLE and HAS_NEXT (R184, R188) -/

theorem exec_cable (hrun : s.runState = .running) (hx : s.endpoint? e = some x) {b : Bool} (hb : cableConnected s e = b) :
    exec (.cable e) s = .next (s.respond (.bool b)) := by
  rw [← hb]
  exact (requireRunning_running hrun _).trans (withEndpoint_some _ hx)

/-- A cable to a recipient that exists is connected where that one names the endpoint (R184). -/
theorem cableConnected_of_recipient (hx : s.endpoint? e = some x) (hr : x.recipient = some f)
    (hy : s.endpoint? f = some y) : cableConnected s e = decide (y.recipient = some e) := by
  simp [cableConnected, State.recipientOf, hx, hr, hy]

theorem cableConnected_detached (hx : s.endpoint? e = some x) (hr : x.recipient = none) : cableConnected s e = false := by
  simp [cableConnected, State.recipientOf, hx, hr]

theorem exec_hasNext (hrun : s.runState = .running) (hx : s.endpoint? e = some x) :
    exec (.hasNext e) s = andThen (hasNextOf e x.device) fun b => .next (s.respond (.bool b)) := by
  have hhook : hasNextHook e s = hasNextOf e x.device := withEndpoint_some _ hx
  rw [← hhook]
  exact requireRunning_running hrun _

/-- A device with a known queue has more to send exactly when the queue holds bytes (R202, R255). -/
theorem hasNextOf_of_queued {d : Device} {q : Bytes} (h : d.queued = some q) (e : EndpointId) :
    hasNextOf e d = .next (decide (0 < q.length)) := by
  cases d with
  | reference tx rx =>
    obtain rfl : tx = q := Option.some.inj h
    rfl
  | command c =>
    obtain rfl : c.session.sendBuffer.drop c.session.sendPos = q := Option.some.inj h
    simp [hasNextOf, hasNextCommand]
  | vendor id token => exact nomatch h

end

/-! ## The statements -/

/-- Settles O25: the two records ATTACH writes, the one DETACH writes. -/
theorem cabling : Obligations.Cabling := by
  refine ⟨fun s e f x y hne hx hy => ?attach, fun s e x hx => ?detach⟩
  case attach =>
    exact ⟨_, exec_attach hne hx hy, attach_endpoint?_left hne hx, attach_endpoint?_right hne hy,
      fun _ => attach_endpoint?_other, fun _ => rfl, rfl⟩
  case detach =>
    exact ⟨_, exec_detach hx, detach_endpoint?_same hx, fun _ => detach_endpoint?_other, fun _ => rfl, rfl⟩

/-- Settles O26: CABLE by the two `recipient` fields, HAS_NEXT by the device. -/
theorem linkQueries : Obligations.LinkQueries := by
  refine ⟨fun s e x hrun hx => ?cable, fun s e x q hrun hx hq => ?queued, fun s e x id token hrun hx hd => ?vendor⟩
  case cable => exact ⟨_, exec_cable hrun hx rfl, cableConnected_iff hx⟩
  case queued =>
    rw [exec_hasNext hrun hx, hasNextOf_of_queued hq]
    rfl
  case vendor =>
    rw [exec_hasNext hrun hx, hd, hasNextOf]
    cases Config.hookHasNext id token <;> rfl

/-- Settles O27: after ATTACH A, B the two name each other; ATTACH A, C and DETACH A write A's field and leave B's, so B still
names A and A no longer names B. -/
theorem cableSymmetry : Obligations.CableSymmetry := by
  intro s a b c x y z hrun hab hac hbc hx hy hz
  obtain ⟨t, ht, hta, htb, htother, -, hteq⟩ := cabling.1 s a b x y hab hx hy
  have htc := (htother c hac.symm hbc.symm).trans hz
  obtain ⟨u, hu, hua, -, huother, -, hueq⟩ := cabling.1 t a c _ z hac hta htc
  have hub := (huother b hab.symm hbc).trans htb
  obtain ⟨v, hv, hva, hvother, -, hveq⟩ := cabling.2 t a _ hta
  have hvb := (hvother b hab.symm).trans htb
  have htrun : t.runState = .running := by rw [hteq, hrun]
  have hurun : u.runState = .running := by rw [hueq, htrun]
  have hvrun : v.runState = .running := by rw [hveq, htrun]
  refine ⟨t, u, v, ht, hu, hv, ?_, ?_, ?_, ?_, ?_⟩
  · exact exec_cable htrun hta (by simp [cableConnected_of_recipient hta rfl htb])
  · exact exec_cable htrun htb (by simp [cableConnected_of_recipient htb rfl hta])
  · exact exec_cable hurun hub (by simp [cableConnected_of_recipient hub rfl hua, hbc.symm])
  · exact exec_cable hvrun hva (cableConnected_detached hva rfl)
  · exact exec_cable hvrun hvb (by simp [cableConnected_of_recipient hvb rfl hva])

end Sys2Proof.Machine
end

section
/-! Transfers (R185 to R187, R196, R197, R202, R254, R255): the delay step, the blocks a queue is sent in, and WRITEOUT,
START_SEND and START_READ as operations. -/

namespace Sys2Proof.Machine

/-! ## The delay step (R196, R197) -/

/-- The delay step of a block that is not empty, in numerals (R196). -/
theorem delayStep_of_pos (acc : Int) {bytes : Nat} (baud elapsed : Nat) (h : 0 < bytes) :
    let due := acc + (bytes * 10 * 1000000000 / baud : Nat) - elapsed
    delayStep acc bytes baud elapsed = if 1000000 < due then (0, due.toNat) else (due, 0) := by
  intro due
  have hdue : deficit acc bytes baud elapsed = due := rfl
  simp only [delayStep, if_neg h.ne', hdue]
  split_ifs <;> rfl

/-- Settles O33 (the name `delayStep` is the model's function): both laws at 9600 baud are the delay step of a full block, whose
expected time is `4096 * 10 * 1000000000 / 9600 = 4266666666` ns. -/
theorem delayStep_laws : Obligations.DelayStep := by
  have hfull (elapsed : Nat) := delayStep_of_pos 0 9600 elapsed (bytes := 4096) (by decide)
  refine ⟨delayStep_zero, fun acc _ baud elapsed => delayStep_of_pos acc baud elapsed, fun elapsed h => ?early,
    fun late => ?late⟩
  case early =>
    rw [hfull, if_pos (by omega), Prod.mk.injEq]
    omega
  case late =>
    rw [hfull, if_neg (by omega), Prod.mk.injEq]
    omega

/-! ## The blocks of a queue (R202, R254, R255) -/

section
variable {d : Device} {q : Bytes}

/-- After `n` bytes the rest of the queue is still to come. -/
theorem queued_afterSending (h : d.queued = some q) (n : Nat) : (d.afterSending n).queued = some (q.drop n) := by
  cases d with
  | reference tx rx =>
    obtain rfl : tx = q := Option.some.inj h
    rfl
  | command c =>
    obtain rfl : c.session.sendBuffer.drop c.session.sendPos = q := Option.some.inj h
    simp [Device.afterSending, Device.queued]
  | vendor id token => exact nomatch h

/-- The send hook of a device with a known queue (R202, R254). -/
theorem produceOf_of_queued {x : Endpoint} (h : x.device.queued = some q) (e : EndpointId) :
    produceOf e x = .next (q.take 4096, x.device.afterSending (min 4096 q.length)) := by
  unfold produceOf
  cases hd : x.device with
  | reference tx rx =>
    obtain rfl : tx = q := by simpa [hd, Device.queued] using h
    simp [Device.afterSending, ← List.take_eq_take_min]
  | command c =>
    obtain rfl : c.session.sendBuffer.drop c.session.sendPos = q := by simpa [hd, Device.queued] using h
    simp [Device.afterSending, produceCommand]
  | vendor id token => simp [hd, Device.queued] at h

/-- The device has more to send after a block exactly when the queue was longer than one (R202, R255). -/
theorem hasNextOf_afterSending (h : d.queued = some q) (e : EndpointId) :
    hasNextOf e (d.afterSending (min 4096 q.length)) = .next (decide (4096 < q.length)) := by
  rw [hasNextOf_of_queued (queued_afterSending h _), List.length_drop]
  congr 2
  rw [eq_iff_iff]
  omega

end

/-- Settles O30: what the send hook picks, whether more is to come, and what is left of the queue. -/
theorem queuedBlock : Obligations.QueuedBlock := by
  intro e x q h
  refine ⟨produceOf_of_queued h e, hasNextOf_afterSending h e, ?_⟩
  rw [queued_afterSending h, ← List.drop_eq_drop_min]

/-! ## WRITEOUT (R187) -/

/-- The frame of a block: the bytes it carries, then zeros (R98). -/
theorem frameOf_eq_of_length_le {data : Bytes} (h : data.length ≤ 4096) :
    frameOf data = data ++ List.replicate (4096 - data.length) 0 := by
  rw [frameOf, List.take_of_length_le h, Nat.min_eq_left h]

/-- A WRITEOUT that completes answers `Ack` (R187). -/
theorem exec_writeout_next {s t : State} (hrun : s.runState = .running) {f : EndpointId} {data : Bytes}
    (h : writeout f data s = .next t) : exec (.writeout f data) s = .next (t.respond .ack) := by
  rw [exec_writeout]
  exact (requireRunning_running hrun _).trans (ackAfter_eq_next.mpr ⟨t, h, rfl⟩)

/-- A START_SEND that completes answers `Ack` (R185). -/
theorem exec_startSend_next {s t : State} (hrun : s.runState = .running) {e : EndpointId} (h : startSend e s = .next t) :
    exec (.startSend e) s = .next (t.respond .ack) := by
  rw [exec_startSend hrun]
  exact ackAfter_eq_next.mpr ⟨t, h, rfl⟩

/-- Settles O28: the whole WRITEOUT into an endpoint without an agent. -/
theorem writeoutDelivers : Obligations.WriteoutDelivers := by
  intro s f x data d status hlive hconsume
  obtain ⟨hrun, hx, hb⟩ := hlive
  obtain ⟨t, ht, hmoved, hkept, hf, hwire, -, hslept, -⟩ := writeoutWith_at (run := executeText) hx hb hconsume
  exact ⟨_, exec_writeout_next hrun ht, rfl, hmoved.linkFrame .ack, hkept, hwire, hf, hslept⟩

/-! ## START_SEND and START_READ (R185, R186) -/

/-- Settles O29: the whole START_SEND between two endpoints without agents; the hook's data fit a frame. -/
theorem startSendDelivers : Obligations.StartSendDelivers := by
  intro s e f x y data d r more status hsender hreceiver hne hxr hproduce hmore hconsume
  obtain ⟨hrun, hx, hxb⟩ := hsender
  obtain ⟨-, hy, hyb⟩ := hreceiver
  have hlen : data.length ≤ 4096 := (produceOf_eq_next hproduce).1
  obtain ⟨t, ht, hmoved, hkept, he, hf, hwire, -, hslept, -⟩ :=
    startSend_at hne hx hxb hxr hy hyb hproduce hlen hmore hconsume
  refine ⟨_, exec_startSend_next hrun ht, rfl, hmoved.linkFrame .ack, hkept, frameOf_eq_of_length_le hlen ▸ hwire, he, hf,
    hslept, fun hnil => ?_⟩
  subst hnil
  exact ⟨delayStep_zero .., delayStep_zero ..⟩

theorem startRead_of_recipient {s : State} {e f : EndpointId} {x : Endpoint} (hx : s.endpoint? e = some x)
    (hr : x.recipient = some f) : startRead e s = startSend f s := by
  unfold startRead
  rw [withEndpoint_some _ hx, hr]

theorem exec_recvMessage {s : State} {e : EndpointId} {x : Endpoint} (hrun : s.runState = .running)
    (hx : s.endpoint? e = some x) :
    exec (.recvMessage e) s = x.recipient.elim (.next (s.respond (.bytes []))) fun f => recvMessage e f s := by
  refine (requireRunning_running hrun _).trans ((withEndpoint_some _ hx).trans ?_)
  cases x.recipient <;> rfl

/-- Settles O31: START_READ by its recipient, and the three transfers of an endpoint without one. -/
theorem startReadIsPeersSend : Obligations.StartReadIsPeersSend := by
  intro s e x hrun hx
  refine ⟨fun f hr => ?_, fun hr => ⟨?read, ?recv, fun hb => ?send⟩⟩
  · rw [exec_startRead hrun, exec_startSend hrun, startRead_of_recipient hx hr]
  case read =>
    rw [exec_startRead hrun]
    exact ackAfter_eq_next.mpr ⟨s, startRead_eq_next.mpr ⟨x, hx, .inl ⟨hr, rfl⟩⟩, rfl⟩
  case recv =>
    rw [exec_recvMessage hrun hx, hr]
    rfl
  case send =>
    obtain ⟨t, ht, hmoved, hkept, he, hwire, hslept, -⟩ := startSend_alone hx hb hr
    exact ⟨_, exec_startSend_next hrun ht, rfl, hmoved.linkFrame .ack, hkept, he, hwire, hslept⟩

end Sys2Proof.Machine
end

section
/-! RECV_MESSAGE (R189): one round along a cable without agents, the loop by the blocks of the peer's queue, and the loop
against a peer that was detached. -/

namespace Sys2Proof.Machine

/-! ## One round along a cable -/

/-- An end of a cable to `peer`, with the device `d` and without a background agent. -/
structure Endpoint.Wired (x : Endpoint) (peer : EndpointId) (d : Device) : Prop where
  quiet : x.bgAgent = false
  recipient : x.recipient = some peer
  device : x.device = d

/-- What rounds between the sender `a` and the reference endpoint `b` make of the machine: both ends are idle on their cable,
the sender with the device `d` and the continuation flag `more`, the receiver with the log `rx`. -/
structure Exchanged (s t : State) (a b : EndpointId) (d : Device) (tx rx : Bytes) (more : Bool) (reads : Nat) : Prop where
  moved : Moved s t
  kept : EndpointsKept s t [a, b]
  sender : ∃ x, t.endpoint? a = some x ∧ x.Wired b d ∧ x.ready = true ∧ x.busy = false ∧ x.blockSize.cont = more
  receiver : ∃ y, t.endpoint? b = some y ∧ y.Wired a (.reference tx rx) ∧ y.ready = true ∧ y.busy = false
  clock : t.clockReads = s.clockReads + reads

theorem Exchanged.trans {s t u : State} {a b : EndpointId} {d d' : Device} {tx rx rx' : Bytes} {more more' : Bool}
    {reads reads' : Nat} (h : Exchanged s t a b d tx rx more reads) (h' : Exchanged t u a b d' tx rx' more' reads') :
    Exchanged s u a b d' tx rx' more' (reads + reads') where
  moved := h.moved.trans h'.moved
  kept := h.kept.trans h'.kept
  sender := h'.sender
  receiver := h'.receiver
  clock := by rw [h'.clock, h.clock, Nat.add_assoc]

/-- The bytes a round takes off the wire are those of the frame that its count covers (R98, R189). -/
theorem deliveredTo_frame {s : State} {e : EndpointId} {data : Bytes} (h : data.length ≤ 4096)
    (hwire : s.wire = some ⟨e, frameOf data, data.length⟩) : deliveredTo e data.length s = data := by
  simp [deliveredTo, hwire, frameOf_eq_of_length_le h]

section
variable {s : State} {a b : EndpointId} {x y : Endpoint} {q tx rx : Bytes}

/-- A round on a reference endpoint `b` takes the first block of what its peer `a` has queued (R185, R189, R202). -/
theorem recvRound_cabled {d : Device} (hne : a ≠ b) (hx : s.endpoint? a = some x) (hxw : x.Wired b d)
    (hy : s.endpoint? b = some y) (hyw : y.Wired a (.reference tx rx)) (hq : d.queued = some q) :
    ∃ t, recvRound b a s = .next (t, q.take 4096, decide (4096 < q.length)) ∧
      Exchanged s t a b (d.afterSending (min 4096 q.length)) tx (rx ++ q.take 4096) (decide (4096 < q.length))
        (if q = [] then 2 else 4) := by
  obtain ⟨hxb, hxr, rfl⟩ := hxw
  obtain ⟨hyb, hyr, hyd⟩ := hyw
  have hlen : (q.take 4096).length ≤ 4096 := List.length_take_le ..
  have hconsume : y.consume (q.take 4096) = some (.reference tx (rx ++ q.take 4096), none) := by
    rw [Endpoint.consume, hyd]
  obtain ⟨u, hu, hmoved, hkept, ha, hb, hwire, -, -, hclock⟩ :=
    startSend_at (s := { s with wire := none }) hne hx hxb hxr hy hyb (produceOf_of_queued hq a) hlen
      (hasNextOf_afterSending hq a) hconsume
  have ha' := interleave_at ha hxb
  have hb' := interleave_at hb hyb
  have hround : recvRound b a s = .next (u.interleave, q.take 4096, decide (4096 < q.length)) := by
    refine recvRound_eq_next.mpr ⟨u, _, ?_, rfl, ha', (deliveredTo_frame hlen hwire).symm, rfl⟩
    rw [← hu]
    exact startRead_of_recipient hy hyr
  refine ⟨_, hround, recvRound_moved hround, ?_, ⟨_, ha', ⟨hxb, hxr, rfl⟩, rfl, rfl, rfl⟩,
    ⟨_, hb', ⟨hyb, hyr, rfl⟩, rfl, rfl⟩, ?_⟩
  · exact ((EndpointsKept.of_endpoints _ rfl).trans hkept).trans (EndpointsKept.interleave u _)
  · rw [State.interleave_clockReads, hclock]
    cases q <;> rfl

/-! ## The loop by the blocks of the queue -/

theorem recvLoop_of_last {e peer : EndpointId} {buf payload : Bytes} {t : State}
    (h : recvRound e peer s = .next (t, payload, false)) :
    recvLoop e peer buf s = some (.next (t.respond (.bytes (buf ++ payload)))) := by
  rw [recvLoop, recvTurn_eq_inl_next.mpr ⟨t, payload, h, rfl⟩]

theorem recvLoop_of_more {e peer : EndpointId} {buf payload : Bytes} {t : State}
    (h : recvRound e peer s = .next (t, payload, true)) :
    recvLoop e peer buf s = recvLoop e peer (buf ++ payload) t := by
  rw [recvLoop, recvTurn_eq_inr.mpr ⟨payload, h, rfl⟩]

theorem afterSending_afterSending (d : Device) (m n : Nat) :
    (d.afterSending m).afterSending n = d.afterSending (m + n) := by
  cases d <;> simp [Device.afterSending, Nat.add_assoc]

/-- Readings of the clock for a queue of `len` bytes: two for a block, four when it carries bytes (R196). -/
def queueReads (len : Nat) : Nat := if len = 0 then 2 else 4 * ((len + 4095) / 4096)

theorem queueReads_of_last (h : q.length ≤ 4096) : queueReads q.length = if q = [] then 2 else 4 := by
  unfold queueReads
  simp only [List.length_eq_zero_iff]
  split_ifs with hnil
  · rfl
  · have hpos := List.length_pos_iff.mpr hnil
    omega

theorem queueReads_of_more {len : Nat} (h : 4096 < len) : 4 + queueReads (len - 4096) = queueReads len := by
  unfold queueReads
  split_ifs <;> omega

/-- The loop on a reference endpoint `b` takes all its peer `a` has queued, block by block (R189, R203 (5)). -/
theorem recvLoop_cabled {s : State} {x y : Endpoint} {d : Device} {q rx : Bytes} (hne : a ≠ b)
    (hx : s.endpoint? a = some x) (hxw : x.Wired b d) (hy : s.endpoint? b = some y)
    (hyw : y.Wired a (.reference tx rx)) (hq : d.queued = some q) (buf : Bytes) :
    ∃ t, recvLoop b a buf s = some (.next (t.respond (.bytes (buf ++ q)))) ∧
      Exchanged s t a b (d.afterSending q.length) tx (rx ++ q) false (queueReads q.length) := by
  obtain ⟨t, hround, hex⟩ := recvRound_cabled hne hx hxw hy hyw hq
  by_cases hmore : 4096 < q.length
  · have hnil : q ≠ [] := List.length_pos_iff.mp (by omega)
    rw [decide_eq_true hmore] at hround hex
    rw [Nat.min_eq_left hmore.le, if_neg hnil] at hex
    obtain ⟨x', hx', hxw', -⟩ := hex.sender
    obtain ⟨y', hy', hyw', -⟩ := hex.receiver
    obtain ⟨u, hloop, hex'⟩ := recvLoop_cabled hne hx' hxw' hy' hyw' (queued_afterSending hq 4096) (buf ++ q.take 4096)
    rw [List.append_assoc, List.take_append_drop] at hloop
    refine ⟨u, (recvLoop_of_more hround).trans hloop, ?_⟩
    have hall := hex.trans hex'
    rwa [afterSending_afterSending, List.append_assoc, List.take_append_drop, List.length_drop,
      Nat.add_sub_cancel' hmore.le, queueReads_of_more hmore] at hall
  · have hlen : q.length ≤ 4096 := Nat.le_of_not_lt hmore
    rw [decide_eq_false hmore, List.take_of_length_le hlen] at hround hex
    rw [Nat.min_eq_right hlen, ← queueReads_of_last hlen] at hex
    exact ⟨t, recvLoop_of_last hround, hex⟩
termination_by q.length
decreasing_by
  rw [List.length_drop]
  omega

/-! ## The loop against a peer that was detached (R185) -/

/-- A round whose peer has no recipient carries nothing and leaves the peer's flag as it is (R185). -/
theorem recvRound_detached (hx : s.endpoint? a = some x) (hr : x.recipient = some b) (hy : s.endpoint? b = some y)
    (hyb : y.bgAgent = false) (hyr : y.recipient = none) :
    ∃ t, recvRound a b s = .next (t, [], y.blockSize.cont) ∧ EndpointsKept s t [b] ∧
      t.endpoint? b = some { y with busy := false, ready := true } := by
  obtain ⟨u, hu, -, hkept, hb, hwire, -⟩ := startSend_alone (s := { s with wire := none }) hy hyb hyr
  have hb' := interleave_at hb hyb
  have hnothing (n : Nat) : deliveredTo a n u = [] := by rw [deliveredTo, hwire]
  refine ⟨u.interleave, recvRound_eq_next.mpr ⟨u, _, ?_, rfl, hb', (hnothing _).symm, rfl⟩, ?_, hb'⟩
  · rw [← hu]
    exact startRead_of_recipient hx hr
  · exact ((EndpointsKept.of_endpoints _ rfl).trans hkept).trans (EndpointsKept.interleave u _)

/-! ## The operation -/

/-- RECV_MESSAGE with a recipient is the loop: its outcome, stuck where it has none (R189, R300). -/
theorem exec_recvMessage_eq_recvLoop (hrun : s.runState = .running) (hx : s.endpoint? a = some x)
    (hr : x.recipient = some b) :
    exec (.recvMessage a) s = (recvLoop a b [] s).getD (.fault (.neverReturns (.flag b))) := by
  rw [exec_recvMessage hrun hx, hr]
  exact recvMessage_eq hx hr

end

/-- Settles O32: the loop on a cabled pair by the blocks of the queue; the loop by its turns; the loop against a detached peer
by that peer's flag. -/
theorem recvConservation : Obligations.RecvConservation := by
  refine ⟨?cabled, ?turns, ?detached⟩
  case cabled =>
    intro s a b x y m tx rx hlivea hliveb hne hxr hyr hm hyd
    obtain ⟨hrun, hx, hxb⟩ := hlivea
    obtain ⟨-, hy, hyb⟩ := hliveb
    obtain ⟨t, hloop, hex⟩ := recvLoop_cabled hne hx ⟨hxb, hxr, rfl⟩ hy ⟨hyb, hyr, hyd⟩ hm []
    obtain ⟨x', hx', hxw, hxready, hxbusy, hcont⟩ := hex.sender
    obtain ⟨y', hy', hyw, hyready, hybusy⟩ := hex.receiver
    have hempty : x'.device.queued = some [] := by
      rw [hxw.device, queued_afterSending hm, List.drop_length]
    refine ⟨t.respond (.bytes m), x', y', ?_, rfl, hx', hy', hex.kept, hxw.device, hempty, hcont, hyw.device, hxready, hxbusy,
      hyready, hybusy, ?_, hex.moved.linkFrame _⟩
    · rw [exec_recvMessage_eq_recvLoop hrun hy hyr, hloop]
      rfl
    · rw [State.respond_clockReads, hex.clock, queueReads]
      simp only [List.length_eq_zero_iff]
  case turns =>
    intro s e f x hrun hx hr
    rw [exec_recvMessage_eq_recvLoop hrun hx hr]
    refine ⟨fun turns r h => ?_, fun hnone => ?_⟩
    · rw [recvLoop_eq_some_iff.mpr ⟨turns, h⟩]
      rfl
    · have hloop : recvLoop e f [] s = none := Option.eq_none_iff_forall_ne_some.mpr fun r hr => by
        obtain ⟨turns, h⟩ := recvLoop_eq_some_iff.mp hr
        exact nomatch (hnone turns).symm.trans h
      rw [hloop]
      rfl
  case detached =>
    intro s e f x y hx hr hlive hyr
    obtain ⟨hrun, hy, hyb⟩ := hlive
    rw [exec_recvMessage_eq_recvLoop hrun hx hr]
    refine ⟨fun hset => ?_, fun hclear => ?_⟩
    · rw [recvLoop_flagStays hx hr (by simp [flagStays, hy, hyr, hyb, hset])]
      rfl
    · obtain ⟨t, hround, hkept, hf⟩ := recvRound_detached hx hr hy hyb hyr
      rw [hclear] at hround
      refine ⟨t.respond (.bytes []), ?_, rfl, (recvRound_moved hround).linkFrame _, hkept, hf⟩
      rw [recvLoop_of_last hround]
      rfl

end Sys2Proof.Machine
end

section
/-! What a command leaves (R230, R235 to R242, R246 to R252): the whole operation from the rule of its keyword, and each rule by
its cases. -/

namespace Sys2Proof.Machine

/-! ## A command operation from its rule (R230) -/

section
variable {s : State} {e : EndpointId} {x : Endpoint} {d : CommandDevice}

/-- A command operation leaves what the rule of its keyword makes of the device. -/
theorem leaves_keywordInstr (h : AwaitsCommand s e x d) {k : Keyword} {arg : Bytes} (hplain : k ∈ plainKeywords → arg = [])
    (harg : Config.eob ∉ arg) {tail : Tail} (hlen : k.bytes.length + arg.length + tail.bytes.length ≤ Config.block)
    {r : DeviceResult} (hr : runKeyword arg x.statusCode d k = r) :
    Leaves (k.instr e arg tail) s e x (k.bytes.length + arg.length + tail.bytes.length) r.1 (r.2.getD x.statusCode) := by
  have hpayload : (commandPayload k arg tail).length = k.bytes.length + arg.length + tail.bytes.length := by
    simp only [commandPayload, List.length_append]
  unfold Leaves
  rw [exec_keywordInstr hplain, ← hpayload]
  refine commandTransfer_leaves h (hpayload ▸ hlen) ?_
  rw [commandText_commandPayload k harg, List.drop_left, hr]

/-- A command without an argument that ends in `st(c)`. -/
theorem leaves_of_status (h : AwaitsCommand s e x d) {k : Keyword} {tail : Tail}
    (hlen : k.bytes.length + tail.bytes.length ≤ Config.block) {d' : CommandDevice} {c : Int}
    (hr : runKeyword [] x.statusCode d k = d'.st c) :
    Leaves (k.instr e [] tail) s e x (k.bytes.length + tail.bytes.length) d' c :=
  leaves_keywordInstr h (fun _ => rfl) List.not_mem_nil hlen hr

/-- A command without an argument that leaves the status. -/
theorem leaves_of_silent (h : AwaitsCommand s e x d) {k : Keyword} {tail : Tail}
    (hlen : k.bytes.length + tail.bytes.length ≤ Config.block) {d' : CommandDevice}
    (hr : runKeyword [] x.statusCode d k = (d', none)) :
    Leaves (k.instr e [] tail) s e x (k.bytes.length + tail.bytes.length) d' x.statusCode :=
  leaves_keywordInstr h (fun _ => rfl) List.not_mem_nil hlen hr

/-- A command with an argument that ends in `st(c)`. -/
theorem leaves_of_argument (h : AwaitsCommand s e x d) {k : Keyword} (hk : k ∉ plainKeywords) {arg : Bytes}
    (harg : Config.eob ∉ arg) {tail : Tail} (hlen : k.bytes.length + arg.length + tail.bytes.length ≤ Config.block)
    {d' : CommandDevice} {c : Int} (hr : runKeyword arg x.statusCode d k = d'.st c) :
    Leaves (k.instr e arg tail) s e x (k.bytes.length + arg.length + tail.bytes.length) d' c :=
  leaves_keywordInstr h (fun hp => absurd hp hk) harg hlen hr

end

/-! ## The device commands and CLOSE (R235 to R238, R246) -/

/-- What DEVSTU stages for the status 129 is the message of R43, whatever the device. -/
theorem devstu_noSuchFile (d : CommandDevice) :
    [BitVec.ofInt 8 129] ++ [Config.us] ++ d.message (BitVec.ofInt 8 129) ++ [Config.eob] =
      [0x81, 0x1F] ++ noSuchFileMessage ++ [0x17] := rfl

/-- Settles O42: each command by its rule, which is one update of the session. -/
theorem deviceCommands : Obligations.DeviceCommands := by
  intro s e x d tail h staged
  refine ⟨fun hlen => leaves_of_status h (k := .close) hlen rfl, fun hlen =>
    ⟨leaves_of_status h (k := .devrst) hlen rfl, leaves_of_silent h (k := .devstu) hlen rfl, fun hstatus => ?_,
      leaves_of_silent h (k := .devtyp) hlen rfl, leaves_of_silent h (k := .devnam) hlen rfl⟩⟩
  have hleaves := leaves_of_silent h (k := .devstu) hlen rfl
  rw [hstatus, devstu_noSuchFile] at hleaves
  exact hleaves

/-! ## What `stat` and a fetch answer -/

/-- The status by which a command refuses what `stat` answers, if it does: `missing` where there is nothing, `dir` and `file`
for a node of the wrong kind (R239, R242, R247, R250 to R252). -/
def statRefusal (missing : Int) (dir file : Option Int) : StatResult → Option Int
  | .ioError => some 192
  | .secError => some 193
  | .missing => some missing
  | .dir => dir
  | .file _ => file

/-- The end of READ and LISTFILES: the bytes of the store are staged, `wrap` around them (R242, R251). -/
def CommandDevice.fetched (d : CommandDevice) (wrap : Bytes → Bytes) : FetchResult → DeviceResult
  | .ok bytes => (d.stage (wrap bytes)).st 0
  | .ioError => d.st 192
  | .secError => d.st 193

/-! ## OPENR, OPENW, OPENA (R239 to R241) -/

section
variable {d : CommandDevice} {arg raw : Bytes} {drive : Option Nat} (hopen : d.session.fileOpen = false)
  (harg : parseOpen arg = some (raw, drive))
include hopen harg

/-- OPENR once the path is set: what `stat` answers refuses it or opens the handle (R239). -/
theorem openr_of_stat {r : StatResult} {store : Store} (hstat : d.store.stat (sanitise d.forbidden raw) = (r, store)) :
    let d1 := (d.withPath (sanitise d.forbidden raw) drive).putStore store
    openr arg d = (statRefusal 129 none none r).elim ((d1.opened .r).st 0) d1.st := by
  unfold openr
  rw [openWith_path harg hopen]
  simp only [CommandDevice.withPath, hstat]
  cases r <;> rfl

/-- OPENW and OPENA once the path is set (R240, R241). -/
theorem openWith_needWritable (mode : OpenMode) :
    let d1 := d.withPath (sanitise d.forbidden raw) drive
    openWith arg d (fun _ d => d.needWritable ((d.opened mode).st stOk)) = d1.needWritable ((d1.opened mode).st 0) :=
  openWith_path harg hopen

end

/-- Settles O43: the checks of every OPEN, then what `stat` answers. -/
theorem openRead : Obligations.OpenRead := by
  intro s e x d arg tail h heob hlen leaves
  have hleaves {d' : CommandDevice} {c : Int} (hr : openr arg d = d'.st c) : leaves d' c :=
    leaves_of_argument h (k := .openr) (by decide) heob hlen hr
  refine ⟨fun hnone => hleaves (openWith_illegal hnone), fun raw drive harg =>
    ⟨fun hopen => hleaves (openWith_alreadyOpen harg hopen), fun hopen => ?_⟩⟩
  intro p answer store hstat d1
  have hanswer := openr_of_stat hopen harg hstat
  refine ⟨?io, ?sec, ?missing, ?found⟩
  case io | sec | missing => rintro rfl; exact hleaves hanswer
  case found => rintro (rfl | ⟨len, rfl⟩) <;> exact hleaves hanswer

/-- Settles O44: both commands are the checks of every OPEN and one check of the store. -/
theorem openWrite : Obligations.OpenWrite := by
  intro s e x d arg tail h heob hlen i mode hi leaves
  have hleaves {d' : CommandDevice} {c : Int}
      (hr : openWith arg d (fun _ d => d.needWritable ((d.opened mode).st stOk)) = d'.st c) : leaves d' c := by
    rcases hi with ⟨rfl, rfl⟩ | ⟨rfl, rfl⟩
    · exact leaves_of_argument h (k := .openw) (by decide) heob hlen hr
    · exact leaves_of_argument h (k := .opena) (by decide) heob hlen hr
  refine ⟨fun hnone => hleaves (openWith_illegal hnone), fun raw drive harg =>
    ⟨fun hopen => hleaves (openWith_alreadyOpen harg hopen), fun hopen => ?_⟩⟩
  have hwrite := openWith_needWritable hopen harg mode
  exact ⟨fun hro => hleaves (hwrite.trans (CommandDevice.needWritable_readOnly hro)),
    fun hrw => hleaves (hwrite.trans (CommandDevice.needWritable_writable hrw))⟩

/-! ## READ (R242) -/

section
variable {d : CommandDevice}

theorem readFile_noHandle (hopen : d.session.fileOpen = false) : readFile d = d.st 135 := by
  simp [readFile, hopen]

theorem readFile_notReadable (hopen : d.session.fileOpen = true) (hmode : d.session.openMode ≠ .r) :
    readFile d = d.st 131 := by
  simp [readFile, hopen, hmode]

/-- READ of a readable handle: what is no file is refused, a file is fetched from the store that `stat` left (R242). -/
theorem readFile_of_stat (hopen : d.session.fileOpen = true) (hmode : d.session.openMode = .r) {p : Path}
    (hpath : d.session.curPath = some p) {r : StatResult} {store : Store} (hstat : d.store.stat p = (r, store)) :
    readFile d =
      (statRefusal 131 (some 131) none r).elim ((d.putStore (store.readAll p).2).fetched id (store.readAll p).1)
        (d.putStore store).st := by
  have hhandle : d.handlePath = p := by rw [CommandDevice.handlePath, hpath, Option.getD_some]
  simp only [readFile, hopen, hmode, hhandle, hstat]
  cases r with
  | file len => cases hread : (store.readAll p).1 <;> simp only [CommandDevice.putStore_store, hread] <;> rfl
  | _ => rfl

end

/-- Settles O47: the checks of the handle, what `stat` answers, what the fetch answers. -/
theorem readStages : Obligations.ReadStages := by
  intro s e x d tail h hlen leaves
  have hleaves {d' : CommandDevice} {c : Int} (hr : readFile d = d'.st c) : leaves d' c :=
    leaves_of_status h (k := .read) hlen hr
  refine ⟨fun hopen => hleaves (readFile_noHandle hopen), fun hopen hmode => hleaves (readFile_notReadable hopen hmode),
    fun p answer store hopen hmode hpath hstat => ?_⟩
  have hanswer := readFile_of_stat hopen hmode hpath hstat
  refine ⟨?io, ?sec, ?noFile, ?file⟩
  case io | sec => rintro rfl; exact hleaves hanswer
  case noFile => rintro (rfl | rfl) <;> exact hleaves hanswer
  case file =>
    rintro len rfl
    cases hread : (store.readAll p).1 <;> rw [hread] at hanswer <;> exact hleaves hanswer

/-! ## DELETE, TOUCH, MKDIR, MKFILE (R247 to R250) -/

/-- DELETE and TOUCH past their first checks: `stat` refuses the path or the store is asked for the change (R247, R250). -/
theorem changeExisting_of_stat {p : Path} {d : CommandDevice} {change : Store → ChangeResult × Store} {r : StatResult}
    {store : Store} (hstat : d.store.stat p = (r, store)) :
    changeExisting p d change =
      (statRefusal 129 none none r).elim ((d.putStore (change store).2).st (changeStatus (change store).1))
        (d.putStore store).st := by
  simp only [changeExisting, hstat]
  cases r <;> rfl

/-- Settles O51: DELETE and TOUCH by `stat` and their change, MKDIR and MKFILE by their change alone. -/
theorem changeCommands : Obligations.ChangeCommands := by
  intro s e x d tail h status
  have hstatus : status = changeStatus := by funext r; cases r <;> rfl
  rw [hstatus]
  refine ⟨fun i n change hi hlen => ?existing, fun i n change hi hlen => ?making⟩
  case existing =>
    have hleaves {d' : CommandDevice} {c : Int}
        (hr : (d.needPath fun p => d.needWritable (changeExisting p d (change p))) = d'.st c) : Leaves i s e x n d' c := by
      rcases hi with ⟨rfl, rfl, rfl⟩ | ⟨rfl, rfl, rfl⟩
      · exact leaves_of_status h (k := .delete) hlen hr
      · exact leaves_of_status h (k := .touch) hlen hr
    refine ⟨fun hnone => hleaves (CommandDevice.needPath_none hnone), fun p hpath => ?_⟩
    have hrule := CommandDevice.needPath_some (k := fun p => d.needWritable (changeExisting p d (change p))) hpath
    refine ⟨fun hro => hleaves (hrule.trans (CommandDevice.needWritable_readOnly hro)), fun answer store hrw hstat => ?_⟩
    have hanswer := hrule.trans ((CommandDevice.needWritable_writable hrw).trans (changeExisting_of_stat hstat))
    refine ⟨?io, ?sec, ?missing, ?found⟩
    case io | sec | missing => rintro rfl; exact hleaves hanswer
    case found =>
      intro hfound r store' hchange
      rw [hchange] at hanswer
      rcases hfound with rfl | ⟨len, rfl⟩ <;> exact hleaves hanswer
  case making =>
    have hleaves {d' : CommandDevice} {c : Int}
        (hr : (d.needPath fun p => d.needWritable
          ((d.putStore (change p d.store).2).st (changeStatus (change p d.store).1))) = d'.st c) : Leaves i s e x n d' c := by
      rcases hi with ⟨rfl, rfl, rfl⟩ | ⟨rfl, rfl, rfl⟩
      · exact leaves_of_status h (k := .mkdir) hlen hr
      · exact leaves_of_status h (k := .mkfile) hlen hr
    refine ⟨fun hnone => hleaves (CommandDevice.needPath_none hnone), fun p hpath =>
      ⟨fun hro => hleaves ((CommandDevice.needPath_some hpath).trans (CommandDevice.needWritable_readOnly hro)),
        fun hrw r store' hchange => hleaves ?_⟩⟩
    rw [CommandDevice.needPath_some hpath, CommandDevice.needWritable_writable hrw, hchange]
    rfl

/-! ## LISTFILES, GETLEN (R251, R252) -/

section
variable {d : CommandDevice} {p : Path} (hpath : d.session.curPath = some p) {r : StatResult} {store : Store}
  (hstat : d.store.stat p = (r, store))
include hpath hstat

theorem listFiles_of_stat :
    listFiles d =
      (statRefusal 129 none (some 134) r).elim
        ((d.putStore (store.list p).2).fetched (· ++ [Config.eob]) (store.list p).1) (d.putStore store).st := by
  rw [listFiles, CommandDevice.needPath_some hpath]
  simp only [hstat]
  cases r with
  | dir => cases hlist : (store.list p).1 <;> simp only [CommandDevice.putStore_store, hlist] <;> rfl
  | _ => rfl

theorem getLen_refused {c : Int} (hr : statRefusal 129 (some 133) none r = some c) : getLen d = (d.putStore store).st c := by
  rw [getLen, CommandDevice.needPath_some hpath]
  simp only [hstat]
  cases r <;> cases hr <;> rfl

end

theorem getLen_file {d : CommandDevice} {p : Path} (hpath : d.session.curPath = some p) {len : Nat} {store : Store}
    (hstat : d.store.stat p = (.file len, store)) :
    getLen d = ((d.putStore store).stage (decimal len ++ [0x17])).st 0 := by
  rw [getLen, CommandDevice.needPath_some hpath]
  simp only [hstat]

/-- Settles O52: both commands by what `stat` answers, LISTFILES then by what the fetch answers. -/
theorem queryCommands : Obligations.QueryCommands := by
  intro s e x d tail h
  have hlist (hlen : 9 + tail.bytes.length ≤ 4096) {d' : CommandDevice} {c : Int} (hr : listFiles d = d'.st c) :
      Leaves (.cmdListfiles e tail) s e x (9 + tail.bytes.length) d' c := leaves_of_status h (k := .listfiles) hlen hr
  have hgetlen (hlen : 6 + tail.bytes.length ≤ 4096) {d' : CommandDevice} {c : Int} (hr : getLen d = d'.st c) :
      Leaves (.cmdGetlen e tail) s e x (6 + tail.bytes.length) d' c := leaves_of_status h (k := .getlen) hlen hr
  refine ⟨?refusals, fun p store hpath hlen => ⟨fun len hstat => ?_, fun hstat => ?_⟩,
    fun p store hpath hlen => ⟨fun hstat => ?_, fun len hstat => ?_⟩⟩
  case refusals =>
    rintro i n (⟨rfl, rfl⟩ | ⟨rfl, rfl⟩) hlen
    · refine ⟨fun hnone => hlist hlen (CommandDevice.needPath_none hnone), fun p answer store hpath hstat => ?_⟩
      refine ⟨?_, ?_, ?_⟩ <;> rintro rfl <;> exact hlist hlen (listFiles_of_stat hpath hstat)
    · refine ⟨fun hnone => hgetlen hlen (CommandDevice.needPath_none hnone), fun p answer store hpath hstat => ?_⟩
      refine ⟨?_, ?_, ?_⟩ <;> rintro rfl <;> exact hgetlen hlen (getLen_refused hpath hstat rfl)
  · exact hlist hlen (listFiles_of_stat hpath hstat)
  · have hanswer := listFiles_of_stat hpath hstat
    cases hread : (store.list p).1 <;> rw [hread] at hanswer <;> exact hlist hlen hanswer
  · exact hgetlen hlen (getLen_refused hpath hstat rfl)
  · exact hgetlen hlen (getLen_file hpath hstat)

end Sys2Proof.Machine
end

section
/-! Writing (R243 to R245): WRITE, the accumulation of its data and the commit, and a WRITE whose data come in two blocks. -/

namespace Sys2Proof.Machine

/-! ## The commit (R245) -/

/-- The store call of a commit: the mode of the handle says which (R245). -/
def CommandDevice.save (d : CommandDevice) (p : Path) (bytes : Bytes) : SaveResult × Store :=
  if d.session.openMode = .w then d.store.writeAll p bytes else d.store.append p bytes

/-- The device after a commit: nothing buffered, nothing to come (R245). -/
def CommandDevice.committed (d : CommandDevice) (store : Store) : CommandDevice :=
  { d with store := store, session := { d.session with writeBuffer := [], writeBufferUsage := 0, accumulating := false } }

section
variable {d : CommandDevice} {p : Path} {answer : SaveResult} {store : Store}

/-- A commit is one call of the store, after which nothing is buffered or awaited (R245). -/
theorem commit_of_save (hpath : d.session.curPath = some p)
    (hsave : d.save p d.session.writeBuffer = (answer, store)) :
    commit d = (d.committed store).st (saveStatus answer) := by
  have hhandle : d.handlePath = p := by rw [CommandDevice.handlePath, hpath, Option.getD_some]
  rw [CommandDevice.save] at hsave
  simp only [commit, hhandle, hsave, CommandDevice.committed]

/-! ## WRITE (R243) -/

/-- The device after WRITE has announced `n` bytes (R243). -/
def CommandDevice.announced (d : CommandDevice) (n : Nat) : CommandDevice :=
  { d with
    session := { d.session with writeBuffer := [], writeBufferUsage := 0, writeTarget := n, accumulating := true } }

variable {arg : Bytes}

theorem writeFile_illegal (harg : parseDigits arg = none) : writeFile arg d = d.st 128 := by
  simp only [writeFile, harg]

variable {n : Nat} (harg : parseDigits arg = some n)
include harg

theorem writeFile_noHandle (hopen : d.session.fileOpen = false) : writeFile arg d = d.st 135 := by
  simp [writeFile, harg, hopen]

theorem writeFile_notWritable (hopen : d.session.fileOpen = true) (hmode : d.session.openMode = .r) :
    writeFile arg d = d.st 131 := by
  simp [writeFile, harg, hopen, hmode]

variable (hopen : d.session.fileOpen = true) (hmode : d.session.openMode ≠ .r)
include hopen hmode

theorem writeFile_announced (hn : 0 < n) :
    writeFile arg d = (d.announced n).st 0 := by
  simp [writeFile, harg, hopen, hmode, hn.ne', CommandDevice.announced]

/-- WRITE of no byte is a commit of an empty buffer (R243, R245). -/
theorem writeFile_zero (hn : n = 0) :
    writeFile arg d =
      commit { d with session := { d.session with writeBuffer := [], writeBufferUsage := 0, writeTarget := 0 } } := by
  simp [writeFile, harg, hopen, hmode, hn]

end

theorem saveStatus_eq (answer : SaveResult) :
    saveStatus answer = match answer with | .ok => 0 | .ioError => 192 | .secError => 193 := by
  cases answer <;> rfl

/-- Settles O48: the checks of WRITE, then the announcement or the commit of an empty buffer. -/
theorem writeAnnounces : Obligations.WriteAnnounces := by
  intro s e x d arg tail h heob hlen leaves
  have hleaves {d' : CommandDevice} {c : Int} (hr : writeFile arg d = d'.st c) : leaves d' c :=
    leaves_of_argument h (k := .write) (by decide) heob hlen hr
  refine ⟨fun hnone => hleaves (writeFile_illegal hnone), fun n harg =>
    ⟨fun hopen => hleaves (writeFile_noHandle harg hopen), fun hopen hmode => hleaves (writeFile_notWritable harg hopen hmode),
      fun hopen hmode hn => hleaves (writeFile_announced harg hopen hmode hn),
      fun p answer store hopen hmode hn hpath hsave => ?_⟩⟩
  have hcommit := (writeFile_zero harg hopen hmode hn).trans (commit_of_save hpath hsave)
  rw [saveStatus_eq] at hcommit
  exact hleaves hcommit

/-! ## Data (R244) -/

/-- The device with the bytes of one more payload in its buffer (R244). -/
def CommandDevice.appended (d : CommandDevice) (payload : Bytes) : CommandDevice :=
  { d with
    session := { d.session with
      writeBuffer := d.session.writeBuffer ++ payload
      writeBufferUsage := d.session.writeBufferUsage + payload.length } }

section
variable {d : CommandDevice} (husage : d.session.writeBufferUsage = d.session.writeBuffer.length) {payload : Bytes}
include husage

/-- A payload that does not complete the announced bytes is appended whole (R244). -/
theorem acceptData_incomplete (hlt : d.session.writeBuffer.length + payload.length < d.session.writeTarget) :
    acceptData payload d = (d.appended payload, none) := by
  have htake : min payload.length (d.session.writeTarget - d.session.writeBufferUsage) = payload.length := by omega
  have hne : d.session.writeBufferUsage + payload.length ≠ d.session.writeTarget := by omega
  simp only [acceptData, htake, List.take_length, if_neg hne, CommandDevice.appended]

/-- A payload that completes the announced bytes is taken up to their number, and all of them are committed (R244, R245). -/
theorem acceptData_complete (hle : d.session.writeBuffer.length ≤ d.session.writeTarget)
    (hge : d.session.writeTarget ≤ d.session.writeBuffer.length + payload.length) {p : Path}
    (hpath : d.session.curPath = some p) {answer : SaveResult} {store : Store}
    (hsave : d.save p ((d.session.writeBuffer ++ payload).take d.session.writeTarget) = (answer, store)) :
    acceptData payload d = (d.committed store).st (saveStatus answer) := by
  have htake : min payload.length (d.session.writeTarget - d.session.writeBufferUsage) =
      d.session.writeTarget - d.session.writeBuffer.length := by omega
  have husage' : d.session.writeBufferUsage + (d.session.writeTarget - d.session.writeBuffer.length) =
      d.session.writeTarget := by omega
  have hwhole : d.session.writeBuffer ++ payload.take (d.session.writeTarget - d.session.writeBuffer.length) =
      (d.session.writeBuffer ++ payload).take d.session.writeTarget := by
    rw [List.take_append, List.take_of_length_le hle]
  simp only [acceptData, htake, husage', hwhole, if_true]
  exact commit_of_save hpath hsave

end

section
variable {s : State} {e : EndpointId} {x : Endpoint} {d : CommandDevice}

/-- A WRITEOUT into a device that accumulates leaves what it makes of the data (R232, R244). -/
theorem leaves_of_acceptData (h : Live s e x) (hd : x.device = .command d) (hacc : d.session.accumulating = true)
    {data : Bytes} (hlen : data.length ≤ 4096) {d' : CommandDevice} {status : Option Int}
    (hr : acceptData data d = (d', status)) :
    Leaves (.writeout e data) s e x data.length d' (status.getD x.statusCode) := by
  obtain ⟨t, ht, hleft⟩ := writeoutWith_device h hd hlen ((consumeWith_data (run := executeText) hacc).trans hr)
  exact ⟨t, (requireRunning_running h.1 _).trans ht, hleft⟩

end

/-- Settles O49: a payload is appended or completes the announced bytes. -/
theorem dataAccumulates : Obligations.DataAccumulates := by
  intro s e x d data p hlive hd hacc hinv hpath hlen
  obtain ⟨husage, htarget, -⟩ := hinv
  refine ⟨fun hlt => leaves_of_acceptData hlive hd hacc hlen (acceptData_incomplete husage hlt),
    fun hge => ?_⟩
  intro whole answer store hsave
  have hcomplete := acceptData_complete husage (husage ▸ htarget) hge hpath hsave
  rw [saveStatus_eq] at hcomplete
  exact leaves_of_acceptData hlive hd hacc hlen hcomplete

/-! ## One operation after another -/

theorem LinkFrame.runState {s t : State} (h : LinkFrame s t) : t.runState = s.runState := by
  rw [h.2]

theorem LinkFrame.trans {s t u : State} (hst : LinkFrame s t) (htu : LinkFrame t u) : LinkFrame s u := by
  obtain ⟨hmem, ht⟩ := hst
  obtain ⟨hmem', hu⟩ := htu
  refine ⟨fun a => (hmem' a).trans (hmem a), hu.trans ?_⟩
  rw [ht]

theorem DeviceLeft.linkFrame {s t : State} {e : EndpointId} {x : Endpoint} {n : Nat} {d : CommandDevice} {c : Int}
    (h : DeviceLeft s e x n d c t) : LinkFrame s t := by
  obtain ⟨-, hframe, -⟩ := h
  exact hframe

/-- The machine after a WRITEOUT into a command device is running, with the device and the status that it left. -/
theorem DeviceLeft.live {s t : State} {e : EndpointId} {x : Endpoint} {n : Nat} {d : CommandDevice} {c : Int}
    (hlive : Live s e x) (h : DeviceLeft s e x n d c t) :
    ∃ y, Live t e y ∧ y.device = .command d ∧ y.statusCode = c := by
  obtain ⟨hrun, -, hagent⟩ := hlive
  have ⟨_, _, _, acc, ht⟩ := h
  exact ⟨_, ⟨h.linkFrame.runState.trans hrun, ht, hagent⟩, rfl, rfl⟩

/-- The digits of a number do not end a command text (R11, R103). -/
theorem eob_notMem_decimal (n : Nat) : Config.eob ∉ decimal n := fun hmem => by
  have hsome : (parseDigits (decimal n)).isSome := by rw [parseDigits_decimal, Option.isSome_some]
  exact absurd ((parseDigits_isSome.mp hsome).2 _ hmem).1 (by decide)

section
variable {d : CommandDevice} {a b : Bytes}

/-- Two payloads that together have the announced bytes: the first completes nothing. -/
theorem acceptData_first (hb : 0 < b.length) :
    acceptData a (d.announced (a.length + b.length)) = ((d.announced (a.length + b.length)).appended a, none) :=
  acceptData_incomplete rfl (show 0 + a.length < a.length + b.length by omega)

/-- The second is committed behind the first. -/
theorem acceptData_second {p : Path} (hpath : d.session.curPath = some p) {answer : SaveResult} {store : Store}
    (hsave : d.save p (a ++ b) = (answer, store)) :
    let d1 := (d.announced (a.length + b.length)).appended a
    acceptData b d1 = (d1.committed store).st (saveStatus answer) := by
  intro d1
  have hwhole : (d1.session.writeBuffer ++ b).take d1.session.writeTarget = a ++ b :=
    List.take_of_length_le List.length_append.le
  exact acceptData_complete (d := d1) (Nat.zero_add _) (Nat.le_add_right _ _) le_rfl hpath
    ((congrArg (d1.save p) hwhole).trans hsave)

end

/-- Settles O50: the announcement, a payload that does not complete it, and one that does. -/
theorem multiBlockWrite : Obligations.MultiBlockWrite := by
  intro s e x d a b p answer store h hopen hmode hpath hcmd ha hb hbpos hsave
  have hwritable : d.session.openMode ≠ .r := by rw [hmode]; decide
  have hannounce := writeFile_announced (parseDigits_decimal (a.length + b.length)) hopen hwritable (by omega)
  obtain ⟨t, ht, hleft⟩ :=
    leaves_of_argument h (k := .write) (tail := .absent) (by decide) (eob_notMem_decimal _) hcmd hannounce
  obtain ⟨xt, hlivet, hxt, -⟩ := hleft.live h.1
  obtain ⟨u, hu, hleft'⟩ := leaves_of_acceptData hlivet hxt rfl ha (acceptData_first hbpos)
  obtain ⟨xu, hliveu, hxu, -⟩ := hleft'.live hlivet
  have hcall : d.save p (a ++ b) = (answer, store) := (if_pos hmode).trans hsave
  obtain ⟨v, hv, hleft''⟩ := leaves_of_acceptData hliveu hxu rfl hb (acceptData_second hpath hcall)
  obtain ⟨y, hlivev, hy, hstatus⟩ := hleft''.live hliveu
  obtain ⟨-, hy?, -⟩ := hlivev
  exact ⟨t, u, v, y, _, ht, hu, hv, hy?, hy, rfl, rfl, hstatus.trans (saveStatus_eq answer),
    (hleft.linkFrame.trans hleft'.linkFrame).trans hleft''.linkFrame⟩

end Sys2Proof.Machine
end

section
/-! A payload whose text is no command (R253). -/

namespace Sys2Proof.Machine

/-- A text that is none of the plain keywords and begins with none of the others selects no command (R253). -/
theorem selectKeyword_eq_none {text : Bytes} (hplain : ∀ k ∈ plainKeywords, text ≠ k.bytes)
    (hargument : ∀ k ∈ argumentKeywords, ¬ k.bytes <+: text) : selectKeyword text = none := by
  have hnoPlain : plainKeywords.find? (fun k => k.bytes == text) = none :=
    List.find?_eq_none.mpr fun k hk he => hplain k hk (eq_of_beq he).symm
  have hnoArgument : argumentKeywords.find? (fun k => k.bytes.isPrefixOf text) = none :=
    List.find?_eq_none.mpr fun k hk hp => hargument k hk (List.isPrefixOf_iff_prefix.mp hp)
  simp only [selectKeyword, hnoPlain, hnoArgument]

theorem notMem_argumentKeywords {k : Keyword} (h : k ∈ plainKeywords) : k ∉ argumentKeywords := by
  revert h
  cases k <;> decide

section
variable {payload : Bytes} (hselect : selectKeyword (commandText payload) = none)
include hselect

theorem executeText_illegal (status : Int) (d : CommandDevice) :
    executeText (commandText payload) status d = illegalCommand d := by
  simp only [executeText, hselect]

/-- A command request that selects nothing is the illegal command (R109 (3)). -/
theorem present_illegal (hlen : payload.length ≤ Config.block) (e : EndpointId) (s : State) :
    present (.cmd e payload) s = execIllegalCommand e payload s := by
  have hdecode : decode (.cmd e payload) = .error .illegalCommand := by
    simp only [decode, decodeCmd, List.take_of_length_le hlen, hselect]
  simp only [present, hdecode, rejectRequest]

end

/-- Settles O53 (the name `illegalCommand` is the model's function): the text selects nothing, so that
request and WRITEOUT are one transfer of the illegal command. -/
theorem illegalCommand_laws : Obligations.IllegalCommand := by
  intro s e x d payload h hlen hplain hargument
  have hselect : selectKeyword (commandText payload) = none :=
    selectKeyword_eq_none (fun k hk => hplain k (notMem_argumentKeywords hk)) hargument
  obtain ⟨t, ht, hleft⟩ := commandTransfer_leaves h hlen (executeText_illegal hselect x.statusCode d)
  refine ⟨t, ?_, ht, hleft⟩
  rw [present_illegal hselect hlen, ← ht]
  exact commandTransfer_congr hlen (fun status d => (executeText_illegal hselect status d).symm) e s

end Sys2Proof.Machine
end

section
/-! Path sanitising (R234): the bytes of a path by what is removed and replaced, its segments one after another. -/

namespace Sys2Proof.Machine

/-! ## The bytes of a path -/

/-- The bytes that path sanitising splits: `\` as `/`, forbidden bytes removed (R234). -/
def cleaned (forbidden raw : Bytes) : Bytes :=
  (raw.map fun b => if b = 0x5C#8 then 0x2F#8 else b).filter fun b => !forbidden.contains b

/-- The segments of a raw path on top of those of a directory. -/
def sanitiseFrom (forbidden : Bytes) (dir : Path) (raw : Bytes) : Path :=
  (splitSlash (cleaned forbidden raw)).foldl pushSegment dir

theorem sanitise_eq (forbidden raw : Bytes) : sanitise forbidden raw = sanitiseFrom forbidden [] raw := rfl

section
variable {forbidden : Bytes}

theorem cleaned_append (a b : Bytes) : cleaned forbidden (a ++ b) = cleaned forbidden a ++ cleaned forbidden b := by
  simp only [cleaned, List.map_append, List.filter_append]

/-- A forbidden byte leaves nothing. -/
theorem cleaned_forbidden {c : Byte} (hc : c ∈ forbidden) (hne : c ≠ 0x5C) : cleaned forbidden [c] = [] := by
  have hne' : c ≠ 0x5C#8 := hne
  simp [cleaned, hne', hc]

theorem cleaned_backslash : cleaned forbidden [0x5C] = cleaned forbidden [0x2F] := rfl

theorem cleaned_separator (hslash : 0x2F ∉ forbidden) {sep : Byte} (hsep : sep = 0x2F ∨ sep = 0x5C) :
    cleaned forbidden [sep] = [0x2F] := by
  have hslash' : 0x2F#8 ∉ forbidden := hslash
  rcases hsep with rfl | rfl <;> simp [cleaned, hslash']

/-- Bytes that are neither forbidden nor `\` stay as they are. -/
theorem cleaned_of_allowed {raw : Bytes} (hraw : ∀ b ∈ raw, b ≠ 0x5C ∧ b ∉ forbidden) : cleaned forbidden raw = raw := by
  have hmap : raw.map (fun b => if b = 0x5C#8 then 0x2F#8 else b) = raw :=
    (List.map_congr_left fun b hb => if_neg (hraw b hb).1).trans (List.map_id raw)
  rw [cleaned, hmap, List.filter_eq_self]
  exact fun b hb => by simpa using (hraw b hb).2

/-- What is left is neither forbidden nor `\`. -/
theorem allowed_of_mem_cleaned {raw : Bytes} {b : Byte} (hb : b ∈ cleaned forbidden raw) : b ≠ 0x5C ∧ b ∉ forbidden := by
  obtain ⟨hmem, hallowed⟩ := List.mem_filter.mp hb
  obtain ⟨c, -, rfl⟩ := List.mem_map.mp hmem
  refine ⟨?_, by simpa using hallowed⟩
  split_ifs with hc
  · decide
  · exact hc

/-! ## Segments -/

theorem splitSlash_ne_nil (l : Bytes) : splitSlash l ≠ [] := by
  cases l with
  | nil => exact List.cons_ne_nil _ _
  | cons b rest =>
    unfold splitSlash
    split_ifs
    · exact List.cons_ne_nil _ _
    · split <;> exact List.cons_ne_nil _ _

theorem splitSlash_slash (rest : Bytes) : splitSlash (0x2F :: rest) = [] :: splitSlash rest := rfl

/-- A byte that is no `/` begins the first segment. -/
theorem splitSlash_cons {b : Byte} (hb : b ≠ 0x2F) {rest seg : Bytes} {segs : List Bytes} (h : splitSlash rest = seg :: segs) :
    splitSlash (b :: rest) = (b :: seg) :: segs := by
  have hb' : b ≠ 0x2F#8 := hb
  simp only [splitSlash, if_neg hb', h]

/-- Bytes split at a `/` between them. -/
theorem splitSlash_append_slash (a b : Bytes) : splitSlash (a ++ 0x2F :: b) = splitSlash a ++ splitSlash b := by
  induction a with
  | nil => rfl
  | cons c a ih =>
    by_cases hc : c = 0x2F
    · subst hc
      rw [List.cons_append, splitSlash_slash, splitSlash_slash, ih, List.cons_append]
    · obtain ⟨seg, segs, hsplit⟩ := List.exists_cons_of_ne_nil (splitSlash_ne_nil a)
      rw [hsplit] at ih
      rw [List.cons_append, splitSlash_cons hc ih, splitSlash_cons hc hsplit]
      rfl

theorem splitSlash_of_notMem {seg : Bytes} (h : 0x2F ∉ seg) : splitSlash seg = [seg] := by
  induction seg with
  | nil => rfl
  | cons b seg ih =>
    obtain ⟨hb, hseg⟩ := List.ne_and_not_mem_of_not_mem_cons h
    exact splitSlash_cons hb.symm (ih hseg)

/-- No segment has a `/`, and all its bytes are the path's. -/
theorem mem_of_mem_splitSlash {l seg : Bytes} (h : seg ∈ splitSlash l) : ∀ b ∈ seg, b ≠ 0x2F ∧ b ∈ l := by
  induction l generalizing seg with
  | nil =>
    obtain rfl := List.mem_singleton.mp h
    exact nofun
  | cons c l ih =>
    by_cases hc : c = 0x2F
    · subst hc
      rw [splitSlash_slash, List.mem_cons] at h
      rcases h with rfl | h
      · exact nofun
      · exact fun b hb => ⟨(ih h b hb).1, List.mem_cons_of_mem _ (ih h b hb).2⟩
    · obtain ⟨seg', segs, hsplit⟩ := List.exists_cons_of_ne_nil (splitSlash_ne_nil l)
      rw [splitSlash_cons hc hsplit, List.mem_cons] at h
      have hrest {seg} (hseg : seg ∈ splitSlash l) {b} (hb : b ∈ seg) : b ≠ 0x2F ∧ b ∈ c :: l :=
        ⟨(ih hseg b hb).1, List.mem_cons_of_mem _ (ih hseg b hb).2⟩
      rcases h with rfl | h
      · rintro b (_ | ⟨_, hb⟩)
        · exact ⟨hc, List.mem_cons_self⟩
        · exact hrest (hsplit ▸ List.mem_cons_self) hb
      · exact fun b hb => hrest (hsplit ▸ List.mem_cons_of_mem _ h) hb

theorem pushSegment_real {dir : Path} {seg : Bytes} (h : RealSegment forbidden seg) : pushSegment dir seg = dir ++ [seg] := by
  obtain ⟨hempty, hdot, hdotdot, -⟩ := h
  exact (if_neg (not_or_intro hempty hdot)).trans (if_neg hdotdot)

/-- What a segment adds to a path of real segments is a real one. -/
theorem mem_pushSegment {dir : Path} {seg seg' : Bytes} (h : seg' ∈ pushSegment dir seg) :
    seg' ∈ dir ∨ seg' = seg ∧ seg ≠ [] ∧ seg ≠ [0x2E] ∧ seg ≠ [0x2E, 0x2E] := by
  unfold pushSegment at h
  split_ifs at h with hskip hup
  · exact .inl h
  · exact .inl (List.mem_of_mem_dropLast h)
  · obtain ⟨hempty, hdot⟩ := not_or.mp hskip
    rw [List.mem_append, List.mem_singleton] at h
    exact h.imp_right fun he => ⟨he, hempty, hdot, hup⟩

theorem mem_foldl_pushSegment {segs : List Bytes} {dir : Path} {seg : Bytes} (h : seg ∈ segs.foldl pushSegment dir) :
    seg ∈ dir ∨ seg ∈ segs ∧ seg ≠ [] ∧ seg ≠ [0x2E] ∧ seg ≠ [0x2E, 0x2E] := by
  induction segs generalizing dir with
  | nil => exact .inl h
  | cons first segs ih =>
    rcases ih h with hdir | ⟨hmem, hreal⟩
    · exact (mem_pushSegment hdir).imp_right fun ⟨he, hreal⟩ => ⟨he ▸ List.mem_cons_self, he ▸ hreal⟩
    · exact .inr ⟨List.mem_cons_of_mem _ hmem, hreal⟩

/-- Every segment of a sanitised path is a real one. -/
theorem realSegment_of_mem_sanitise {raw seg : Bytes} (h : seg ∈ sanitise forbidden raw) : RealSegment forbidden seg := by
  rcases mem_foldl_pushSegment h with hnil | ⟨hmem, hempty, hdot, hdotdot⟩
  · exact nomatch hnil
  · have hbytes := mem_of_mem_splitSlash hmem
    exact ⟨hempty, hdot, hdotdot, fun hb => (hbytes _ hb).1 rfl,
      fun hb => (allowed_of_mem_cleaned (hbytes _ hb).2).1 rfl, fun b hb => (allowed_of_mem_cleaned (hbytes b hb).2).2⟩

/-! ## A path, segment by segment -/

/-- The part of a path behind a separator goes on from the directory that the part before it names. -/
theorem sanitiseFrom_append_separator (hslash : 0x2F ∉ forbidden) {sep : Byte} (hsep : sep = 0x2F ∨ sep = 0x5C) (dir : Path)
    (a b : Bytes) :
    sanitiseFrom forbidden dir (a ++ sep :: b) = sanitiseFrom forbidden (sanitiseFrom forbidden dir a) b := by
  have hcleaned : cleaned forbidden (a ++ sep :: b) = cleaned forbidden a ++ 0x2F :: cleaned forbidden b := by
    rw [List.append_cons, cleaned_append, cleaned_append, cleaned_separator hslash hsep, List.append_assoc,
      List.singleton_append]
  simp only [sanitiseFrom, hcleaned, splitSlash_append_slash, List.foldl_append]

/-- Bytes without a separator or a forbidden byte are one segment. -/
theorem sanitiseFrom_segment {seg : Bytes} (hsep : 0x2F ∉ seg) (hallowed : ∀ b ∈ seg, b ≠ 0x5C ∧ b ∉ forbidden) (dir : Path) :
    sanitiseFrom forbidden dir seg = pushSegment dir seg := by
  rw [sanitiseFrom, cleaned_of_allowed hallowed, splitSlash_of_notMem hsep, List.foldl_cons, List.foldl_nil]

theorem sanitiseFrom_nil (dir : Path) : sanitiseFrom forbidden dir [] = dir := rfl

theorem sanitiseFrom_real {seg : Bytes} (h : RealSegment forbidden seg) (dir : Path) :
    sanitiseFrom forbidden dir seg = dir ++ [seg] := by
  have ⟨_, _, _, hslash, hback, hforbidden⟩ := h
  rw [sanitiseFrom_segment hslash (fun b hb => ⟨fun he => hback (he ▸ hb), hforbidden b hb⟩), pushSegment_real h]

theorem sanitiseFrom_dot (hdot : 0x2E ∉ forbidden) (dir : Path) : sanitiseFrom forbidden dir [0x2E] = dir := by
  rw [sanitiseFrom_segment (by decide) (by simpa using hdot)]
  rfl

theorem sanitiseFrom_dotdot (hdot : 0x2E ∉ forbidden) (dir : Path) :
    sanitiseFrom forbidden dir [0x2E, 0x2E] = dir.dropLast := by
  rw [sanitiseFrom_segment (by decide) (by simpa using hdot)]
  rfl

/-- A `/` in front goes on from the same directory. -/
theorem sanitiseFrom_slash_cons (hslash : 0x2F ∉ forbidden) (dir : Path) (b : Bytes) :
    sanitiseFrom forbidden dir (0x2F :: b) = sanitiseFrom forbidden dir b :=
  sanitiseFrom_append_separator hslash (.inl rfl) dir [] b

/-- So does a `.` in front. -/
theorem sanitiseFrom_dot_cons (hdot : 0x2E ∉ forbidden) (hslash : 0x2F ∉ forbidden) (dir : Path) (b : Bytes) :
    sanitiseFrom forbidden dir (0x2E :: 0x2F :: b) = sanitiseFrom forbidden dir b := by
  have hstep := sanitiseFrom_append_separator hslash (.inl rfl) dir [0x2E] b
  rwa [sanitiseFrom_dot hdot] at hstep

/-- A `..` in front goes on from the directory above. -/
theorem sanitiseFrom_dotdot_cons (hdot : 0x2E ∉ forbidden) (hslash : 0x2F ∉ forbidden) (dir : Path) (b : Bytes) :
    sanitiseFrom forbidden dir (0x2E :: 0x2E :: 0x2F :: b) = sanitiseFrom forbidden dir.dropLast b := by
  have hstep := sanitiseFrom_append_separator hslash (.inl rfl) dir [0x2E, 0x2E] b
  rwa [sanitiseFrom_dotdot hdot] at hstep

/-- Real segments between separators are added as they are. -/
theorem sanitiseFrom_joinSegments (hslash : 0x2F ∉ forbidden) {sep : Byte} (hsep : sep = 0x2F ∨ sep = 0x5C) {segs : Path}
    (hsegs : ∀ seg ∈ segs, RealSegment forbidden seg) (dir : Path) :
    sanitiseFrom forbidden dir (joinSegments sep segs) = dir ++ segs := by
  induction segs generalizing dir with
  | nil => exact (List.append_nil dir).symm
  | cons seg segs ih =>
    obtain ⟨hseg, hrest⟩ := List.forall_mem_cons.mp hsegs
    cases segs with
    | nil => exact sanitiseFrom_real hseg dir
    | cons next rest =>
      rw [joinSegments, sanitiseFrom_append_separator hslash hsep, sanitiseFrom_real hseg, ih hrest,
        List.append_cons dir seg (next :: rest)]
      exact List.cons_ne_nil _ _

end

/-- Settles O46: each clause by the walk over the segments. -/
theorem sanitisedPaths : Obligations.SanitisedPaths := by
  refine ⟨fun _ _ _ => realSegment_of_mem_sanitise,
    fun forbidden sep segs hslash hsep hsegs => sanitiseFrom_joinSegments hslash hsep hsegs [],
    fun forbidden a b c hc hne => ?forbiddenByte, fun forbidden a b => ?backslash, fun forbidden a b hdot hslash => ?steps⟩
  case forbiddenByte =>
    simp only [sanitise_eq, sanitiseFrom, cleaned_append, cleaned_forbidden hc hne, List.append_nil]
  case backslash => simp only [sanitise_eq, sanitiseFrom, cleaned_append, cleaned_backslash]
  case steps =>
    have hstep := sanitiseFrom_append_separator hslash (.inl rfl) (sep := 0x2F)
    simp only [sanitise_eq, List.append_assoc, List.cons_append, List.nil_append]
    rw [hstep [] a b]
    refine ⟨?empty, ?dot, sanitiseFrom_slash_cons hslash [] b, sanitiseFrom_dot_cons hdot hslash [] b,
      sanitiseFrom_dotdot_cons hdot hslash [] b, fun seg hseg => ⟨?undone, ?undoneLast⟩⟩
    case empty => rw [hstep, sanitiseFrom_slash_cons hslash]
    case dot => rw [hstep, sanitiseFrom_dot_cons hdot hslash]
    case undone =>
      rw [hstep, hstep, sanitiseFrom_real hseg, sanitiseFrom_dotdot_cons hdot hslash, List.dropLast_concat]
    case undoneLast =>
      rw [hstep, hstep, sanitiseFrom_real hseg, sanitiseFrom_dotdot hdot, List.dropLast_concat]

end Sys2Proof.Machine
end

section
/-! The faults (R291, R293 to R295): the addresses where READ and WRITE fault, as the targets at which nothing answers, and the
faults of MALLOC and FREE. -/

namespace Sys2Proof.Machine

/-! ## Where an address leads (R62 to R66) -/

/-- Every address lies in user RAM, in an MMIO window, in a RAM window, or outside of all of them. -/
theorem address_cases (memsize : Nat) (addr : Int) :
    (∃ a : Nat, addr = a ∧ a < memsize) ∨ (∃ (j : Slot) (w : Nat), addr = mmioAddress j w ∧ w < 131072) ∨
    (∃ (k : Slot) (off : Nat), addr = ramAddress k off ∧ k ≠ 0 ∧ off < 1048576) ∨
    ((memsize : Int) ≤ addr ∨ addr ≤ -8388609) := by
  by_cases houtside : (memsize : Int) ≤ addr ∨ addr ≤ -8388609
  · exact .inr (.inr (.inr houtside))
  by_cases huser : 0 ≤ addr
  · exact .inl ⟨addr.toNat, by omega, by omega⟩
  obtain ⟨r, rfl⟩ : ∃ r : Nat, addr = -(r + 1 : Int) := ⟨(-addr - 1).toNat, by omega⟩
  by_cases hmmio : r < 1048576
  · refine .inr (.inl ⟨⟨r / 131072, by omega⟩, r % 131072, ?_, by omega⟩)
    simp only [mmioAddress]
    omega
  · refine .inr (.inr (.inl ⟨⟨r / 1048576, by omega⟩, r % 1048576, ?_, Fin.ne_of_val_ne ?_, by omega⟩))
    · simp only [ramAddress]
      omega
    · show r / 1048576 ≠ 0
      omega

/-! ## The four causes (R291) -/

/-- Nothing answers at a target: no mapping, a window of an empty slot, or an offset beyond the card's declared RAM. -/
def Target.Unanswered (s : State) : Target → Prop
  | .user _ => False
  | .mmio j _ => s.slot j = none
  | .ram k off => ∀ ent, s.slot k = some ent → ent.periMemSize ≤ off
  | .noMapping => True

section
variable {s : State}

theorem not_unreachable_user {a : Nat} (ha : a < s.memsize) : ¬Unreachable s a := by
  rintro (h | h | ⟨j, -, h, -⟩ | ⟨k, -, -, h, -⟩) <;> omega

theorem unreachable_mmioAddress (j : Slot) {w : Nat} (hw : w < 131072) :
    Unreachable s (mmioAddress j w) ↔ s.slot j = none := by
  have hj := j.isLt
  simp only [Unreachable, mmioAddress]
  constructor
  · rintro (h | h | ⟨i, hlow, hhigh, hempty⟩ | ⟨k, hk, -, hhigh, -⟩)
    · omega
    · omega
    · obtain rfl : i = j := Fin.ext (by omega)
      exact hempty
    · have hpos : k.val ≠ 0 := Fin.val_ne_zero_iff.mpr hk
      omega
  · exact fun hempty => .inr (.inr (.inl ⟨j, by omega, by omega, hempty⟩))

theorem unreachable_ramAddress {k : Slot} (hk : k ≠ 0) {off : Nat} (hoff : off < 1048576) :
    Unreachable s (ramAddress k off) ↔ ∀ ent, s.slot k = some ent → ent.periMemSize ≤ off := by
  have hlt := k.isLt
  have hpos : k.val ≠ 0 := Fin.val_ne_zero_iff.mpr hk
  simp only [Unreachable, ramAddress]
  constructor
  · rintro (h | h | ⟨j, hlow, -, -⟩ | ⟨i, -, hlow, hhigh, hcause⟩) ent he
    · omega
    · omega
    · have hj := j.isLt
      omega
    · obtain rfl : i = k := Fin.ext (by omega)
      obtain hempty | ⟨ent', he', hsize⟩ := hcause
      · exact absurd (hempty.symm.trans he) nofun
      · obtain rfl : ent' = ent := Option.some.inj (he'.symm.trans he)
        omega
  · refine fun hsize => .inr (.inr (.inr ⟨k, hk, by omega, by omega, ?_⟩))
    cases he : s.slot k with
    | none => exact .inl rfl
    | some ent =>
      have := hsize ent he
      exact .inr ⟨ent, rfl, by omega⟩

/-- The four causes are those of the address's target. -/
theorem unreachable_iff (addr : Int) : Unreachable s addr ↔ (decodeAddress s.memsize addr).Unanswered s := by
  obtain ⟨a, rfl, ha⟩ | ⟨j, w, rfl, hw⟩ | ⟨k, off, rfl, hk, hoff⟩ | houtside := address_cases s.memsize addr
  · rw [decodeAddress_user ha]
    exact iff_false_intro (not_unreachable_user ha)
  · rw [decodeAddress_mmioAddress _ j hw]
    exact unreachable_mmioAddress j hw
  · rw [decodeAddress_ramAddress _ hk hoff]
    exact unreachable_ramAddress hk hoff
  · rw [decodeAddress_noMapping houtside]
    exact iff_true_intro (houtside.imp_right .inl)

/-! ## READ and WRITE (R130, R131) -/

variable {addr : Int} {v : Byte} {j k : Slot} {w off : Nat}

/-- A READ answers a byte in the MMIO window of any card, one that declares no register among them (R69, R71). -/
theorem readMmio_data {t : State} (hslot : s.slot j ≠ none) (h : readMmio addr j w s = .next t) :
    ∃ b, t.response = .data b := by
  obtain ⟨ent, he⟩ := Option.ne_none_iff_exists'.mp hslot
  simp only [readMmio, he] at h
  split at h
  · exact ⟨0xFF, Host.Outcome.next.inj h ▸ rfl⟩
  · obtain ⟨u, o, -, rfl⟩ := dataAfter_eq_next.mp h
    exact ⟨_, rfl⟩

theorem writeMmio_ack {t : State} (hslot : s.slot j ≠ none) (h : writeMmio addr v j w s = .next t) : t.response = .ack := by
  obtain ⟨ent, he⟩ := Option.ne_none_iff_exists'.mp hslot
  simp only [writeMmio, he] at h
  split at h
  · exact Host.Outcome.next.inj h ▸ rfl
  · obtain ⟨u, -, rfl⟩ := ackAfter_eq_next.mp h
    rfl

theorem readRam_raise (h : ∀ ent, s.slot k = some ent → ent.periMemSize ≤ off) :
    readRam addr k off s = .next (s.raise .illegalAccess addr) := by
  unfold readRam
  split
  · rfl
  · next ent he => exact if_pos (h ent he)

theorem writeRam_raise (h : ∀ ent, s.slot k = some ent → ent.periMemSize ≤ off) :
    writeRam addr v k off s = .next (s.raise .illegalAccess addr) := by
  unfold writeRam
  split
  · rfl
  · next ent he => exact if_pos (h ent he)

theorem readRam_of_size {ent : Entry} (he : s.slot k = some ent) (hsize : off < ent.periMemSize) :
    readRam addr k off s = dataAfter (cardPeek k ent off s) := by
  simp only [readRam, he]
  exact if_neg (not_le.mpr hsize)

theorem writeRam_of_size {ent : Entry} (he : s.slot k = some ent) (hsize : off < ent.periMemSize) :
    writeRam addr v k off s = ackAfter (cardPoke k ent off v s) := by
  simp only [writeRam, he]
  exact if_neg (not_le.mpr hsize)

theorem exec_read_raise (hrun : s.runState = .running) (h : (decodeAddress s.memsize addr).Unanswered s) :
    exec (.read addr) s = .next (s.raise .illegalAccess addr) := by
  rw [exec_read, execRead, requireRunning_running hrun]
  generalize decodeAddress s.memsize addr = target at h
  cases target with
  | user a => exact h.elim
  | mmio j w => simp only [readMmio, show s.slot j = none from h]
  | ram k off => exact readRam_raise h
  | noMapping => rfl

theorem exec_write_raise (hrun : s.runState = .running) (h : (decodeAddress s.memsize addr).Unanswered s) (v : Byte) :
    exec (.write addr v) s = .next (s.raise .illegalAccess addr) := by
  rw [exec_write, execWrite, requireRunning_running hrun]
  generalize decodeAddress s.memsize addr = target at h
  cases target with
  | user a => exact h.elim
  | mmio j w => simp only [writeMmio, show s.slot j = none from h]
  | ram k off => exact writeRam_raise h
  | noMapping => rfl

/-- At every other target an answering READ answers a byte. -/
theorem exec_read_data {t : State} (h : ¬(decodeAddress s.memsize addr).Unanswered s)
    (ht : exec (.read addr) s = .next t) : ∃ b, t.response = .data b := by
  obtain ⟨-, ht⟩ := requireRunning_eq_next.mp ((exec_read ..).symm.trans ht)
  generalize decodeAddress s.memsize addr = target at h ht
  cases target with
  | user a => exact ⟨s.userByte a, Host.Outcome.next.inj ht ▸ rfl⟩
  | mmio j w => exact readMmio_data h ht
  | ram k off =>
    simp only [Target.Unanswered, not_forall, not_le] at h
    obtain ⟨ent, he, hsize⟩ := h
    obtain ⟨u, o, -, rfl⟩ := dataAfter_eq_next.mp ((readRam_of_size he hsize).symm.trans ht)
    exact ⟨_, rfl⟩
  | noMapping => exact absurd trivial h

theorem exec_write_ack {t : State} (h : ¬(decodeAddress s.memsize addr).Unanswered s)
    (ht : exec (.write addr v) s = .next t) : t.response = .ack := by
  obtain ⟨-, ht⟩ := requireRunning_eq_next.mp ((exec_write ..).symm.trans ht)
  generalize decodeAddress s.memsize addr = target at h ht
  cases target with
  | user a => exact Host.Outcome.next.inj ht ▸ rfl
  | mmio j w => exact writeMmio_ack h ht
  | ram k off =>
    simp only [Target.Unanswered, not_forall, not_le] at h
    obtain ⟨ent, he, hsize⟩ := h
    obtain ⟨u, -, rfl⟩ := ackAfter_eq_next.mp ((writeRam_of_size he hsize).symm.trans ht)
    rfl
  | noMapping => exact absurd trivial h

end

/-- Settles O10: the four causes as those of the target, then the access by its target. -/
theorem illegalAccess : Obligations.IllegalAccess := by
  intro s addr v hrun
  rw [unreachable_iff]
  exact ⟨fun h => ⟨exec_read_raise hrun h, exec_write_raise hrun h v⟩,
    fun h => ⟨fun t => exec_read_data h, fun t => exec_write_ack h⟩⟩

/-! ## MALLOC (R161, R293, R295, R297) -/

section
variable {s : State} {size : Int}

theorem exec_malloc_of_not_pos (hrun : s.runState = .running) (hsize : size ≤ 0) :
    exec (.malloc size) s = .next (s.raise .invalidAllocSize size) := by
  change requireRunning s _ = _
  rw [requireRunning_running hrun, if_pos hsize]

theorem exec_malloc_of_no_fit (hrun : s.runState = .running) (hsize : 0 < size)
    (hfit : firstFit s.allocBits (unitsOf size) = none) :
    exec (.malloc size) s = .next (s.raise .outOfMemory size) := by
  change requireRunning s _ = _
  rw [requireRunning_running hrun, if_neg (not_le.mpr hsize), hfit]

end

/-- Settles O19: the size check comes before the search, and first fit finds nothing where every run has a set bit. -/
theorem mallocFaults : Obligations.MallocFaults := by
  refine fun s size hrun => ⟨exec_malloc_of_not_pos hrun, fun hsize hfull => exec_malloc_of_no_fit hrun hsize ?_⟩
  exact firstFit_eq_none.mpr fun i hin => clearRun_eq_false_iff.mpr (hfull i hin)

/-! ## FREE (R163, R294, R297) -/

theorem exec_free_of_not_unit {s : State} {offset : Int} (hrun : s.runState = .running)
    (hunit : offset < 0 ∨ offset.toNat % Config.unitBytes ≠ 0) :
    exec (.free offset) s = .next (s.raise .invalidFree offset) := by
  change requireRunning s _ = _
  rw [requireRunning_running hrun, if_pos hunit]

/-- Settles O21: the sign and the alignment are checked first; any other offset is a unit's, and its look-up finds nothing. -/
theorem invalidFree : Obligations.InvalidFree := by
  intro s offset hrun h
  by_cases hunit : offset < 0 ∨ offset.toNat % Config.unitBytes ≠ 0
  · exact exec_free_of_not_unit hrun hunit
  · simp only [Config.unitBytes] at hunit
    obtain ⟨i, rfl⟩ : ∃ i : Nat, offset = (64 * i : Nat) := ⟨offset.toNat / 64, by omega⟩
    have hindex : ((64 * i : Nat) : Int).toNat / 64 = i := by omega
    rw [hindex] at h
    exact exec_free_of_not_live hrun (h.resolve_left (by omega) |>.resolve_left (by omega))

end Sys2Proof.Machine
end
